-- ==== Sys2Proof/Word.lean ====
section
/-! DEFINITION. The word types of the engine: lanes and registers of 64 bits, bytes, the lane state and the
input buffer (00_scope.md R2, 10_state.md R10 and R16). -/

namespace Sys2Proof

/-- A 64-bit unsigned value: a lane, DIN, DOUT, or a command word (00_scope.md R2). -/
abbrev Word := BitVec 64

/-- A byte. -/
abbrev Byte := BitVec 8

/-- The lane state S: 25 lanes of 64 bits (10_state.md R10). -/
abbrev Lanes := Vector Word 25

/-- The input buffer BUF: 199 bytes (10_state.md R16). -/
abbrev Buffer := Vector Byte 199

end Sys2Proof
end

