-- ==== Sys2Proof/Syntax.lean ====
section
/-! DEFINITION. The commands of spec/opcode_table.json and the causes a command can fail with. -/

namespace Sys2Proof

/-- The three commands (30_encoding.md R61, R62, R64). A field holds every value its bits can hold: the spec's
assembler accepts an in-field but illegal value, and the engine rejects it at completion (30_encoding.md R67). -/
inductive Instr where
  /-- INIT: RATE is w[15:8], DSEP is w[23:16] (30_encoding.md R61). -/
  | init (rate dsep : BitVec 8)
  /-- ABSORB: N is w[11:8] (30_encoding.md R62). -/
  | absorb (n : BitVec 4)
  /-- SQUEEZE: N is w[11:8] (30_encoding.md R62). -/
  | squeeze (n : BitVec 4)
  deriving DecidableEq, Repr

/-- The failure causes, in the order of their codes (60_exceptions.md R201). -/
inductive Cause where
  | badOpcode
  | reservedBits
  | badRate
  | badLength
  | noContext
  | absorbAfterFinal
  | invariant
  deriving DecidableEq, Repr

/-- The result classes (60_exceptions.md R200). -/
inductive ErrClass where
  | ok
  | argumentError
  | usageError
  | internalError
  deriving DecidableEq, Repr

end Sys2Proof
end

