-- ==== Sys2Proof/Decode.lean ====
section
/-! DEFINITION. Command words: their fields, the decoder, the encoder, and the opcode table's rows (30_encoding.md). -/

namespace Sys2Proof

/-! ### Fields of a command word (30_encoding.md R60 to R63) -/

/-- OPC = w[7:0]. -/
def opcodeField (w : Word) : BitVec 8 := w.extractLsb' 0 8

/-- RATE = w[15:8] of format I. -/
def rateField (w : Word) : BitVec 8 := w.extractLsb' 8 8

/-- DSEP = w[23:16] of format I. -/
def dsepField (w : Word) : BitVec 8 := w.extractLsb' 16 8

/-- RSVD = w[63:24] of format I. -/
def reservedI (w : Word) : BitVec 40 := w.extractLsb' 24 40

/-- N = w[11:8] of format L. -/
def lengthField (w : Word) : BitVec 4 := w.extractLsb' 8 4

/-- RSVD = w[63:12] of format L. -/
def reservedL (w : Word) : BitVec 52 := w.extractLsb' 12 52

/-! ### Legal field values -/

/-- RATE is legal in 1..199 (30_encoding.md R61). -/
abbrev RateLegal (rate : BitVec 8) : Prop := 1 ≤ rate.toNat ∧ rate.toNat ≤ 199

/-- N is legal in 0..8 (30_encoding.md R62). -/
abbrev LengthLegal (n : BitVec 4) : Prop := n.toNat ≤ 8

/-! ### Decoding -/

/-- Format I: a set RSVD bit fails with RESERVED_BITS (30_encoding.md R65). -/
def decodeI (w : Word) : Except Cause Instr :=
  if reservedI w = 0 then .ok (.init (rateField w) (dsepField w)) else .error .reservedBits

/-- Format L: a set RSVD bit fails with RESERVED_BITS (30_encoding.md R65). -/
def decodeL (mk : BitVec 4 → Instr) (w : Word) : Except Cause Instr :=
  if reservedL w = 0 then .ok (mk (lengthField w)) else .error .reservedBits

/-- The command a word is, or the cause that rejects the word by itself: BAD_OPCODE first, then RESERVED_BITS
(30_encoding.md R64, R65; 60_exceptions.md R204 items 1 and 2). The other checks need the fields or the state and
are the command's own. -/
def decode (w : Word) : Except Cause Instr :=
  if opcodeField w = 0x01 then decodeI w
  else if opcodeField w = 0x02 then decodeL .absorb w
  else if opcodeField w = 0x03 then decodeL .squeeze w
  else .error .badOpcode

/-! ### Encoding -/

/-- The word of format I with OPC 0x01 (30_encoding.md R61, R67). -/
def encodeI (rate dsep : BitVec 8) : Word :=
  0x01#64 ||| (rate.setWidth 64 <<< 8) ||| (dsep.setWidth 64 <<< 16)

/-- The word of format L with the given OPC (30_encoding.md R62, R67). -/
def encodeL (opc : BitVec 8) (n : BitVec 4) : Word :=
  opc.setWidth 64 ||| (n.setWidth 64 <<< 8)

/-- The word of a command. -/
def encode : Instr → Word
  | .init rate dsep => encodeI rate dsep
  | .absorb n => encodeL 0x02 n
  | .squeeze n => encodeL 0x03 n

/-! ### The opcode table (30_encoding.md R66, spec/opcode_table.json) -/

/-- A row of the opcode table: a word is the row's command when its masked bits are the pattern. -/
structure OpcodeRow where
  mnemonic : String
  mask : Word
  pattern : Word
  deriving DecidableEq, Repr

/-- The word matches the row. -/
def OpcodeRow.accepts (r : OpcodeRow) (w : Word) : Bool := w &&& r.mask == r.pattern

/-- The row of a command. -/
def opcodeRow : Instr → OpcodeRow
  | .init _ _ => { mnemonic := "INIT", mask := 0xFFFFFFFFFF0000FF#64, pattern := 0x0000000000000001#64 }
  | .absorb _ => { mnemonic := "ABSORB", mask := 0xFFFFFFFFFFFFF0FF#64, pattern := 0x0000000000000002#64 }
  | .squeeze _ => { mnemonic := "SQUEEZE", mask := 0xFFFFFFFFFFFFF0FF#64, pattern := 0x0000000000000003#64 }

/-- What the decoder reads from a command whose low `nbits` bits are those of `w` and whose other bits are 0.
A command is one 64-bit word, so no byte order arises (notes/assumptions/10.md). -/
def decodeTableWord (nbits w : Nat) : Option Instr :=
  (decode (BitVec.ofNat 64 (w % 2 ^ nbits))).toOption

end Sys2Proof
end

