-- ==== Sys2Proof/Machine/Permutation.lean ====
section
/-! DEFINITION. The permutation core: Keccak-p[1600] with rounds 12 to 23 (41_permutation.md R100 to R107, R109). -/

namespace Sys2Proof.Machine

/-- Lane i of a lane state. Every use has i < 25; the value past the end is never used (notes/assumptions/18.md). -/
def laneAt (a : Lanes) (i : Nat) : Word := a[i]?.getD 0

/-- Writes lane i. Every use has i < 25. -/
def setLane (a : Lanes) (i : Nat) (v : Word) : Lanes := a.setIfInBounds i v

/-- `lane(x, y)` is lane x + 5*y (10_state.md R10). -/
def laneXY (a : Lanes) (x y : Nat) : Word := laneAt a (x + 5 * y)

/-- Rotate left by s mod 64; no shift by 64 is performed (41_permutation.md R100). -/
def rotl64 (v : Word) (s : Nat) : Word :=
  if s % 64 = 0 then v else (v <<< (s % 64)) ||| (v >>> (64 - s % 64))

/-- The round constants RC[0..23] (41_permutation.md R101). -/
def roundConstants : List Word :=
  [0x0000000000000001#64, 0x0000000000008082#64, 0x800000000000808A#64, 0x8000000080008000#64,
   0x000000000000808B#64, 0x0000000080000001#64, 0x8000000080008081#64, 0x8000000000008009#64,
   0x000000000000008A#64, 0x0000000000000088#64, 0x0000000080008009#64, 0x000000008000000A#64,
   0x000000008000808B#64, 0x800000000000008B#64, 0x8000000000008089#64, 0x8000000000008003#64,
   0x8000000000008002#64, 0x8000000000000080#64, 0x000000000000800A#64, 0x800000008000000A#64,
   0x8000000080008081#64, 0x8000000000008080#64, 0x0000000080000001#64, 0x8000000080008008#64]

/-- RC[i] (41_permutation.md R101). Every use has 12 ≤ i < 24 (R107). -/
def roundConstant (i : Nat) : Word := roundConstants.getD i 0

/-- One step of the LFSR x^8 + x^6 + x^5 + x^4 + 1 that generates the table (41_permutation.md R101, informative). -/
def lfsrStep (r : BitVec 8) : BitVec 8 :=
  if r.getLsbD 7 then (r <<< 1) ^^^ 0x71#8 else r <<< 1

/-- rc(t): the output bit after t steps from state 1 (41_permutation.md R101, informative). -/
def lfsrBit (t : Nat) : Bool := (Nat.repeat lfsrStep t 1#8).getLsbD 0

/-- C[x]: the parity of column x (41_permutation.md R102). -/
def columnParity (a : Lanes) (x : Nat) : Word :=
  laneXY a x 0 ^^^ laneXY a x 1 ^^^ laneXY a x 2 ^^^ laneXY a x 3 ^^^ laneXY a x 4

/-- D[x] = C[(x-1) mod 5] ^ rotl64(C[(x+1) mod 5], 1) (41_permutation.md R102); (x-1) mod 5 is (x+4) mod 5. -/
def columnMix (a : Lanes) (x : Nat) : Word :=
  columnParity a ((x + 4) % 5) ^^^ rotl64 (columnParity a ((x + 1) % 5)) 1

/-- θ (41_permutation.md R102). -/
def theta (a : Lanes) : Lanes :=
  Vector.ofFn fun i => laneAt a i.val ^^^ columnMix a (i.val % 5)

/-- The running values of the ρ and π walk: the lanes, the coordinates, and `current` (41_permutation.md R103). -/
structure Walk where
  lanes : Lanes
  x : Nat
  y : Nat
  current : Word
  deriving DecidableEq, Repr

/-- Step t of the walk (41_permutation.md R103). -/
def walkStep (w : Walk) (t : Nat) : Walk :=
  { lanes := setLane w.lanes (w.y + 5 * ((2 * w.x + 3 * w.y) % 5)) (rotl64 w.current (((t + 1) * (t + 2) / 2) % 64))
    x := w.y
    y := (2 * w.x + 3 * w.y) % 5
    current := laneAt w.lanes (w.y + 5 * ((2 * w.x + 3 * w.y) % 5)) }

/-- ρ and π, the in-place walk of 24 steps from lane(1, 0) (41_permutation.md R103). -/
def rhoPi (a : Lanes) : Lanes :=
  ((List.range 24).foldl walkStep { lanes := a, x := 1, y := 0, current := laneAt a 1 }).lanes

/-- χ: each row from its own snapshot (41_permutation.md R104). -/
def chi (a : Lanes) : Lanes :=
  Vector.ofFn fun i =>
    laneAt a i.val ^^^
      (~~~(laneXY a ((i.val % 5 + 1) % 5) (i.val / 5)) &&& laneXY a ((i.val % 5 + 2) % 5) (i.val / 5))

/-- ι: RC[i] into lane 0 (41_permutation.md R105). -/
def iota (a : Lanes) (i : Nat) : Lanes := setLane a 0 (laneAt a 0 ^^^ roundConstant i)

/-- One round: θ, then ρ and π, then χ, then ι (41_permutation.md R106). -/
def keccakRound (a : Lanes) (i : Nat) : Lanes := iota (chi (rhoPi (theta a))) i

/-- Keccak-p[1600, 12]: rounds 12 to 23 (41_permutation.md R107). -/
def keccakP (a : Lanes) : Lanes := (List.range' 12 12).foldl keccakRound a

end Sys2Proof.Machine
end

