-- ==== Sys2Proof/Machine/Codec.lean ====
section
/-! DEFINITION. The lane/byte codec on lanes and bytes (42_lane_codec.md R120 to R124, 10_state.md R11, 20_memory.md R49). -/

namespace Sys2Proof.Machine

/-- `for j in [0, n): body j` (00_scope.md section 5, loops). -/
def loopUpTo {α : Type} (body : Nat → α → α) : Nat → α → α
  | 0, a => a
  | n + 1, a => body n (loopUpTo body n a)

/-- byte_k(v) = v[8k+7:8k] (20_memory.md R49). -/
def byteOf (v : Word) (k : Nat) : Byte := v.extractLsb' (8 * k) 8

/-- State byte j (10_state.md R11). -/
def stateByte (a : Lanes) (j : Nat) : Byte := ((laneAt a (j / 8)) >>> (8 * (j % 8))).setWidth 8

/-- XORs b into state byte j (42_lane_codec.md R121). -/
def xorByteInto (a : Lanes) (j : Nat) (b : Byte) : Lanes :=
  setLane a (j / 8) (laneAt a (j / 8) ^^^ (b.setWidth 64 <<< (8 * (j % 8))))

/-- BUF[i]. Every use has i < 199 (notes/assumptions/18.md). -/
def bufAt (buf : Buffer) (i : Nat) : Byte := buf[i]?.getD 0

/-- Writes BUF[i]. Every use has i < 199. -/
def setBuf (buf : Buffer) (i : Nat) (b : Byte) : Buffer := buf.setIfInBounds i b

/-- XORs the first n buffer bytes into state bytes 0..n-1 (42_lane_codec.md R120). -/
def xorBlockInto (a : Lanes) (buf : Buffer) (n : Nat) : Lanes :=
  loopUpTo (fun j l => xorByteInto l j (bufAt buf j)) n a

/-- `len` consecutive state bytes from state byte `src` (42_lane_codec.md R122). -/
def readStateBytes (a : Lanes) (src len : Nat) : List Byte :=
  (List.range len).map fun i => stateByte a (src + i)

/-- Bytes into a 64-bit value, the first byte lowest and the rest zero (42_lane_codec.md R124). -/
def packBytes : List Byte → Word
  | [] => 0
  | b :: bs => b.setWidth 64 ||| (packBytes bs <<< 8)

end Sys2Proof.Machine
end

