-- ==== Sys2Proof/Machine/Operands.lean ====
section
/-! DEFINITION. Operand forms: the message bytes of an ABSORB (42_lane_codec.md R123). -/

namespace Sys2Proof.Machine

/-- The message bytes of an ABSORB with count n: byte k of PDIN for k in [0, n); the bytes from n on are ignored
(42_lane_codec.md R123). -/
def messageBytes (pdin : Word) (n : Nat) : List Byte := (List.range n).map (byteOf pdin)

end Sys2Proof.Machine
end

