-- ==== Sys2Proof/Config.lean ====
section
/-! DEFINITION. What is fixed for one engine and the spec leaves open: P_RPC and P_BASE (00_scope.md R1), and the
free value that picks the agent that moves (70_reset_and_hazards.md R224). None of them has a body. -/

namespace Sys2Proof

/-- The legal values of P_RPC, rounds evaluated per clock cycle (00_scope.md R1). -/
inductive RoundsPerCycle where
  | one | two | three | four | six | twelve
  deriving DecidableEq, Repr, Inhabited

/-- The number a value of P_RPC stands for. -/
def RoundsPerCycle.toNat : RoundsPerCycle → Nat
  | .one => 1
  | .two => 2
  | .three => 3
  | .four => 4
  | .six => 6
  | .twelve => 12

/-- P_RPC of this engine (00_scope.md R1). UNVERIFIED: any legal value (notes/assumptions/6.md); safe. -/
opaque Config.rpc : RoundsPerCycle

/-- P_BASE divided by 64 (00_scope.md R1). UNVERIFIED: any value (notes/assumptions/6.md); safe. -/
opaque Config.baseUnits : Nat

/-- P_BASE, the byte address of the register window, a multiple of 64 (00_scope.md R1, 20_memory.md R40). -/
def Config.base : Nat := 64 * Config.baseUnits

/-- Whether the host moves before the engine at the given turn, where both may (70_reset_and_hazards.md R224).
A free value: nothing constrains it (notes/assumptions/2.md); safe. -/
opaque Config.hostFirst : Nat → Bool

end Sys2Proof
end

