-- ==== Sys2Proof/Machine/State.lean ====
section
/-! DEFINITION. The engine's state (10_state.md), the bus port and the host's events (20_memory.md,
70_reset_and_hazards.md R220), the reasons a step can stop, and the state after reset (10_state.md R28). -/

namespace Sys2Proof.Machine

/-- The sizes of a host access, in bytes: 1, 2, 4 and 8 (20_memory.md R42). -/
inductive AccessSize where
  | b1 | b2 | b4 | b8
  deriving DecidableEq, Repr

/-- What a host access does; a write carries its data (20_memory.md section 2). -/
inductive AccessOp where
  | read
  | write (data : Word)
  deriving DecidableEq, Repr

/-- A host access: a byte address on the host bus, a size, and read or write. -/
structure Access where
  addr : Nat
  size : AccessSize
  op : AccessOp
  deriving DecidableEq, Repr

/-- A bus response's status (20_memory.md section 2). -/
inductive BusStatus where
  | okay
  | slverr
  deriving DecidableEq, Repr

/-- A response given: the offset and operation of the access, the status, and the read data (0 for a write,
notes/assumptions/11.md). -/
structure Response where
  offset : BitVec 6
  op : AccessOp
  status : BusStatus
  data : Word
  deriving DecidableEq, Repr

/-- One event the host brings to the engine's ports, in the order they reach it (70_reset_and_hazards.md R220, R232;
notes/assumptions/3.md). -/
inductive HostEvent where
  /-- An access to the host bus. -/
  | access (a : Access)
  /-- WAIT: read STATUS until BUSY is 0 (30_encoding.md R67; notes/assumptions/8.md). -/
  | wait
  /-- A rising edge of `clk` at which `rst` is high (70_reset_and_hazards.md R221; notes/assumptions/12.md). -/
  | rst
  deriving DecidableEq, Repr

/-- The engine's state, its bus port and the host's events. Plain data. -/
@[ext]
structure State where
  /-- S[0..24] (10_state.md R10). -/
  lanes : Lanes
  /-- RATE (10_state.md R13). -/
  rate : BitVec 8
  /-- DSEP (10_state.md R14). -/
  dsep : BitVec 8
  /-- CTXV (10_state.md R15). -/
  ctxv : Bool
  /-- BUF[0..198] (10_state.md R16; its bytes from BUFLEN on: notes/assumptions/13.md). -/
  buf : Buffer
  /-- BUFLEN (10_state.md R17). -/
  buflen : BitVec 8
  /-- FIN (10_state.md R18). -/
  fin : Bool
  /-- CUR (10_state.md R19). -/
  cur : BitVec 8
  /-- DIN (10_state.md R20). -/
  din : Word
  /-- DOUT (10_state.md R21). -/
  dout : Word
  /-- ERR (10_state.md R24). -/
  err : BitVec 4
  /-- ECAUSE (10_state.md R24). -/
  ecause : BitVec 8
  /-- STICKY (10_state.md R24). -/
  sticky : Bool
  /-- BUSY (10_state.md R25); it is also the `busy` output (70_reset_and_hazards.md R220). -/
  busy : Bool
  /-- PCMD (10_state.md R25). -/
  pcmd : Word
  /-- PDIN (10_state.md R25). -/
  pdin : Word
  /-- The data of the CMD write that is held, outstanding on the bus with no response (20_memory.md R46). -/
  held : Option Word
  /-- The host's events that have not reached the engine, oldest first (notes/assumptions/3.md). -/
  inputs : List HostEvent
  /-- The responses given, newest first (notes/assumptions/11.md). -/
  answers : List Response
  /-- The model's own: the argument of the free value that picks the agent (notes/assumptions/2.md). -/
  turn : Nat
  /-- The model's own: the number of Permute() calls made (notes/assumptions/7.md). -/
  permCount : Nat
  deriving DecidableEq, Repr

/-- Why the machine stops. -/
inductive Fault where
  /-- Raised by ABSORB and SQUEEZE where CTXV = 1 and INV is false: InternalError(INVARIANT), which a model treats as a
  fault, the state being outside the rules (60_exceptions.md R205, 92_eei_decisions.md D25,
  93_implementation_defined.md I4, treatment `fault`). `reported` is the state the engine reports: ERR, ECAUSE and
  STICKY, and nothing else changed. Safe (notes/assumptions/1.md). -/
  | invariantFailed (reported : State)
  /-- Raised by the host's step where `rst` is sampled high while a CMD write is still held: an access kept
  outstanding across reset is outside the contract (70_reset_and_hazards.md R221, 92_eei_decisions.md D24,
  93_implementation_defined.md I12, treatment `fault`). Safe. -/
  | accessAcrossReset
  deriving DecidableEq, Repr

/-- Why a command is refused. -/
inductive Refusal where
  /-- A command without a meaning in the model, by its mnemonic. No arm of `exec` raises it: every command of the
  opcode table has its meaning. Safe. -/
  | notModelled (mnemonic : String)
  deriving DecidableEq, Repr

/-- The state after reset (10_state.md R28). The last five fields are not the engine's registers: no access is
outstanding, the host has brought no event, and nothing has been answered or counted (notes/assumptions/17.md). -/
def State.reset : State where
  lanes := Vector.replicate 25 0
  rate := 0
  dsep := 0
  ctxv := false
  buf := Vector.replicate 199 0
  buflen := 0
  fin := false
  cur := 0
  din := 0
  dout := 0
  err := 0
  ecause := 0
  sticky := false
  busy := false
  pcmd := 0
  pdin := 0
  held := none
  inputs := []
  answers := []
  turn := 0
  permCount := 0

end Sys2Proof.Machine
end

