-- ==== Sys2Proof/Machine/Flags.lean ====
section
/-! DEFINITION. Result classes, cause codes, and the STATUS and CONFIG words (60_exceptions.md R200, R201;
10_state.md R22, R23). -/

namespace Sys2Proof.Machine

/-- The ERR code of a class (60_exceptions.md R200). -/
def classCode : ErrClass → BitVec 4
  | .ok => 0
  | .argumentError => 1
  | .usageError => 2
  | .internalError => 3

/-- The class of a cause (60_exceptions.md R201). -/
def causeClass : Cause → ErrClass
  | .badOpcode => .argumentError
  | .reservedBits => .argumentError
  | .badRate => .argumentError
  | .badLength => .argumentError
  | .noContext => .usageError
  | .absorbAfterFinal => .usageError
  | .invariant => .internalError

/-- The ECAUSE code of a cause (60_exceptions.md R201). 0x00 is NONE, written by a success. -/
def causeCode : Cause → BitVec 8
  | .badOpcode => 0x01
  | .reservedBits => 0x02
  | .badRate => 0x03
  | .badLength => 0x04
  | .noContext => 0x05
  | .absorbAfterFinal => 0x06
  | .invariant => 0x07

/-- A 1-bit field at bit k of a 64-bit word. -/
def flagBit (b : Bool) (k : Nat) : Word := if b then 1#64 <<< k else 0

/-- The STATUS word (10_state.md R22). -/
def State.statusWord (s : State) : Word :=
  flagBit s.busy 0 ||| flagBit s.ctxv 1 ||| flagBit s.fin 2 ||| flagBit s.sticky 3 |||
    (s.err.setWidth 64 <<< 4) ||| (s.ecause.setWidth 64 <<< 8) |||
    (s.buflen.setWidth 64 <<< 16) ||| (s.cur.setWidth 64 <<< 24)

/-- The CONFIG word of an engine with the given P_RPC: NROUNDS and FIRST_ROUND are 12 (10_state.md R23). -/
def configWordFor (rpc : Nat) (rate dsep : BitVec 8) : Word :=
  rate.setWidth 64 ||| (dsep.setWidth 64 <<< 8) ||| (12#64 <<< 16) ||| (12#64 <<< 24) |||
    ((BitVec.ofNat 8 rpc).setWidth 64 <<< 32)

/-- The CONFIG word (10_state.md R23). -/
def State.configWord (s : State) : Word := configWordFor Config.rpc.toNat s.rate s.dsep

end Sys2Proof.Machine
end

