-- ==== Sys2Proof/Machine/Ops.lean ====
section
/-! DEFINITION. The named operations on the state that the commands share: the permutation and the codec on S, the
invariant, a command's failure and success, and the command latch. -/

namespace Sys2Proof.Machine

/-- Permute(): S becomes Keccak-p[1600, 12](S), and no other engine state changes (41_permutation.md R107). The model
counts the call (notes/assumptions/7.md). -/
def State.permute (s : State) : State := { s with lanes := keccakP s.lanes, permCount := s.permCount + 1 }

/-- XorBlock(n) (42_lane_codec.md R120). -/
def State.xorBlock (s : State) (n : Nat) : State := { s with lanes := xorBlockInto s.lanes s.buf n }

/-- XorStateByte(j, b) (42_lane_codec.md R121). -/
def State.xorStateByte (s : State) (j : Nat) (b : Byte) : State := { s with lanes := xorByteInto s.lanes j b }

/-- BUF[BUFLEN] <- b, then BUFLEN <- BUFLEN + 1 (43_absorb.md R141, 44_squeeze.md R160 step 1). -/
def State.pushByte (s : State) (b : Byte) : State :=
  { s with buf := setBuf s.buf s.buflen.toNat b, buflen := s.buflen + 1 }

/-- The context invariant INV (10_state.md R27). -/
abbrev State.Inv (s : State) : Prop :=
  (s.ctxv = false ∧ s.rate = 0 ∧ s.buflen = 0 ∧ s.fin = false ∧ s.cur = 0) ∨
    (s.ctxv = true ∧ RateLegal s.rate ∧
      ((s.fin = false ∧ s.buflen.toNat < s.rate.toNat ∧ s.cur = 0) ∨
        (s.fin = true ∧ s.buflen = 0 ∧ s.cur.toNat ≤ s.rate.toNat)))

/-- A failed command: ERR, ECAUSE and STICKY, and nothing else (60_exceptions.md R202). It is no trap: nothing is
saved and control goes nowhere (60_exceptions.md R206). -/
def State.raise (c : Cause) (s : State) : State :=
  { s with err := classCode (causeClass c), ecause := causeCode c, sticky := true }

/-- The outcome of a command whose first failing check has the cause c: the failure, and for INVARIANT the fault that
carries it (60_exceptions.md R202, R205; notes/assumptions/1.md). -/
def failCommand (c : Cause) (s : State) : Host.Outcome State Fault Refusal :=
  if c = .invariant then .fault (.invariantFailed (s.raise c)) else .next (s.raise c)

/-- A successful command's ERR and ECAUSE; STICKY is unchanged (60_exceptions.md R203). -/
def State.succeed (s : State) : State := { s with err := 0, ecause := 0 }

/-- The first check that fails, in the order the checks stand (60_exceptions.md R204). -/
def firstFailing : List (Bool × Cause) → Option Cause
  | [] => none
  | (failed, c) :: rest => if failed then some c else firstFailing rest

/-- Acceptance of a command: PCMD <- w, PDIN <- DIN, BUSY <- 1 (20_memory.md R46). -/
def State.accept (w : Word) (s : State) : State := { s with pcmd := w, pdin := s.din, busy := true, held := none }

/-- BUSY <- 0, at the end of a completion (70_reset_and_hazards.md R224). -/
def State.release (s : State) : State := { s with busy := false }

/-- A response on the bus. -/
def State.respond (r : Response) (s : State) : State := { s with answers := r :: s.answers }

/-- The next turn of the free value that picks the agent (notes/assumptions/2.md). -/
def State.nextTurn (s : State) : State := { s with turn := s.turn + 1 }

end Sys2Proof.Machine
end

