-- ==== Sys2Proof/Machine/Absorb.lean ====
section
/-! DEFINITION. ABSORB: message bytes into the sponge (43_absorb.md R140, R141). -/

namespace Sys2Proof.Machine

/-- AbsorbByte(b): into the buffer; a block that completes is XORed in and permuted (43_absorb.md R141). -/
def absorbByte (s : State) (b : Byte) : State :=
  if (s.pushByte b).buflen = s.rate then
    { ((s.pushByte b).xorBlock s.rate.toNat).permute with buflen := 0 }
  else s.pushByte b

/-- AbsorbByte on each byte in order (43_absorb.md R140, the loop). -/
def absorbBytes (s : State) (bytes : List Byte) : State := bytes.foldl absorbByte s

/-- ABSORB's checks, in order (43_absorb.md R140, 60_exceptions.md R204). -/
def absorbFailure (n : BitVec 4) (s : State) : Option Cause :=
  firstFailing
    [(decide (¬LengthLegal n), .badLength), (!s.ctxv, .noContext), (decide (¬s.Inv), .invariant),
     (s.fin, .absorbAfterFinal)]

/-- ABSORB (43_absorb.md R140). The RSVD check stands before it, in `decode` (notes/assumptions/14.md). INVARIANT is
a fault (60_exceptions.md R205). -/
def execAbsorb (n : BitVec 4) (s : State) : Host.Outcome State Fault Refusal :=
  match absorbFailure n s with
  | some c => failCommand c s
  | none => .next (absorbBytes s (messageBytes s.pdin n.toNat)).succeed

end Sys2Proof.Machine
end

