-- ==== Sys2Proof/Machine/Init.lean ====
section
/-! DEFINITION. INIT: context construction (45_context.md R180 to R182). -/

namespace Sys2Proof.Machine

/-- A fresh context with rate r and separation byte d: S, BUF and DOUT zero, the absorbing phase (45_context.md R180). -/
def State.freshContext (rate dsep : BitVec 8) (s : State) : State :=
  { s with
    lanes := Vector.replicate 25 0
    buf := Vector.replicate 199 0
    buflen := 0
    fin := false
    cur := 0
    rate := rate
    dsep := dsep
    ctxv := true
    dout := 0 }

/-- INIT's check: RATE = 0 or RATE >= 200 fails (45_context.md R180). -/
def initFailure (rate : BitVec 8) : Option Cause :=
  firstFailing [(decide (¬RateLegal rate), .badRate)]

/-- INIT (45_context.md R180). The RSVD check stands before it, in `decode` (notes/assumptions/14.md). -/
def execInit (rate dsep : BitVec 8) (s : State) : Host.Outcome State Fault Refusal :=
  match initFailure rate with
  | some c => failCommand c s
  | none => .next (s.freshContext rate dsep).succeed

end Sys2Proof.Machine
end

