-- ==== Sys2Proof/Machine/Squeeze.lean ====
section
/-! DEFINITION. SQUEEZE: finalize, and output bytes with a lazy refill (44_squeeze.md R160 to R165). -/

namespace Sys2Proof.Machine

/-- Finalize() steps 1 to 3: append D, XOR the buffer in, XOR 0x80 into byte RATE - 1 (44_squeeze.md R160, R161). -/
def padInput (s : State) : State :=
  ((s.pushByte s.dsep).xorBlock (s.pushByte s.dsep).buflen.toNat).xorStateByte (s.rate.toNat - 1) 0x80

/-- Finalize() (44_squeeze.md R160). -/
def finalize (s : State) : State :=
  { (padInput s).permute with buf := Vector.replicate 199 0, buflen := 0, fin := true, cur := 0 }

/-- Finalize() when FIN = 0 (44_squeeze.md R162). -/
def ensureFinal (s : State) : State := if s.fin then s else finalize s

/-- The refill test of SqueezeByte(): permute when CUR = RATE (44_squeeze.md R163). -/
def refill (s : State) : State := if s.cur = s.rate then { s.permute with cur := 0 } else s

/-- SqueezeByte(): the next output byte and the state after it (44_squeeze.md R163). -/
def squeezeByte (s : State) : Byte × State :=
  (stateByte (refill s).lanes (refill s).cur.toNat, { refill s with cur := (refill s).cur + 1 })

/-- n output bytes in order (44_squeeze.md R162, the loop). -/
def squeezeBytes : Nat → State → List Byte × State
  | 0, s => ([], s)
  | n + 1, s =>
    ((squeezeByte s).1 :: (squeezeBytes n (squeezeByte s).2).1, (squeezeBytes n (squeezeByte s).2).2)

/-- DOUT <- pack(o, N) after the bytes are produced (44_squeeze.md R162, 42_lane_codec.md R124). -/
def squeezeOut (n : Nat) (s : State) : State :=
  { (squeezeBytes n s).2 with dout := packBytes (squeezeBytes n s).1 }

/-- SQUEEZE's checks, in order (44_squeeze.md R162, 60_exceptions.md R204). -/
def squeezeFailure (n : BitVec 4) (s : State) : Option Cause :=
  firstFailing
    [(decide (¬LengthLegal n), .badLength), (!s.ctxv, .noContext), (decide (¬s.Inv), .invariant)]

/-- SQUEEZE (44_squeeze.md R162). The RSVD check stands before it, in `decode` (notes/assumptions/14.md). INVARIANT is
a fault (60_exceptions.md R205). -/
def execSqueeze (n : BitVec 4) (s : State) : Host.Outcome State Fault Refusal :=
  match squeezeFailure n s with
  | some c => failCommand c s
  | none => .next (squeezeOut n.toNat (ensureFinal s)).succeed

end Sys2Proof.Machine
end

