-- ==== Sys2Proof/Machine/Dispatch.lean ====
section
/-! DEFINITION. One arm per command: its meaning (70_reset_and_hazards.md R224). -/

namespace Sys2Proof.Machine

def exec (i : Instr) (s : State) : Host.Outcome State Fault Refusal :=
  match i with
  | .init rate dsep => Sys2Proof.Machine.execInit rate dsep s
  | .absorb n => Sys2Proof.Machine.execAbsorb n s
  | .squeeze n => Sys2Proof.Machine.execSqueeze n s

end Sys2Proof.Machine
end

