-- ==== Sys2Proof/Machine/Complete.lean ====
section
/-! DEFINITION. The engine's completion step (70_reset_and_hazards.md R224). -/

namespace Sys2Proof.Machine

/-- BUSY <- 0 on the state a fault carries. -/
def releaseFault : Fault → Fault
  | .invariantFailed reported => .invariantFailed reported.release
  | .accessAcrossReset => .accessAcrossReset

/-- BUSY <- 0 on the state an outcome reaches or a fault carries. -/
def releaseOutcome : Host.Outcome State Fault Refusal → Host.Outcome State Fault Refusal
  | .next s => .next s.release
  | .fault r => .fault (releaseFault r)
  | .refused r => .refused r

/-- Complete(): the command in PCMD runs on PDIN, or the word's own error is raised; then BUSY <- 0, also after a
raise (70_reset_and_hazards.md R224). -/
def complete (s : State) : Host.Outcome State Fault Refusal :=
  match decode s.pcmd with
  | .ok i => releaseOutcome (exec i s)
  | .error c => .next (s.raise c).release

end Sys2Proof.Machine
end

