-- ==== Sys2Proof/Machine/Bus.lean ====
section
/-! DEFINITION. The register window and the host's accesses to it (20_memory.md R40 to R48). -/

namespace Sys2Proof.Machine

/-- The host-visible registers (20_memory.md R41). -/
inductive Reg where
  | cmd | din | dout | status | config
  deriving DecidableEq, Repr

/-- A register's offset (20_memory.md R41). -/
def regOffset : Reg → BitVec 6
  | .cmd => 0x00
  | .din => 0x08
  | .dout => 0x10
  | .status => 0x18
  | .config => 0x20

/-- The register at an offset; the reserved offsets have none (20_memory.md R41, R43). -/
def regAt (off : BitVec 6) : Option Reg :=
  if off = 0x00 then some .cmd
  else if off = 0x08 then some .din
  else if off = 0x10 then some .dout
  else if off = 0x18 then some .status
  else if off = 0x20 then some .config
  else none

/-- The window offset of a host byte address under a base address, in [0x00, 0x40); none outside the window
(20_memory.md R40). -/
def offsetFrom (base addr : Nat) : Option (BitVec 6) :=
  if base ≤ addr ∧ addr < base + 64 then some (BitVec.ofNat 6 (addr - base)) else none

/-- The window offset of a host byte address: addr - P_BASE (20_memory.md R40). -/
def windowOffset (addr : Nat) : Option (BitVec 6) := offsetFrom Config.base addr

/-- The access is of 8 bytes at a multiple of 8 (20_memory.md R42). -/
abbrev Supported (off : BitVec 6) (size : AccessSize) : Prop := size = .b8 ∧ off.toNat % 8 = 0

/-- A register's current value; CMD reads 0 (20_memory.md R45, R48). -/
def State.readReg (s : State) : Reg → Word
  | .cmd => 0
  | .din => s.din
  | .dout => s.dout
  | .status => s.statusWord
  | .config => s.configWord

/-- A refused access: SLVERR, no effect, read data 0 (20_memory.md R42, R43, R44; 60_exceptions.md R208). -/
def refuseAccess (off : BitVec 6) (op : AccessOp) (s : State) : State :=
  s.respond { offset := off, op := op, status := .slverr, data := 0 }

/-- OKAY with read data (20_memory.md R48), or with none for a write. -/
def grantAccess (off : BitVec 6) (op : AccessOp) (data : Word) (s : State) : State :=
  s.respond { offset := off, op := op, status := .okay, data := data }

/-- A CMD write that is accepted, with its response (20_memory.md R46). -/
def acceptCmd (w : Word) (s : State) : State := grantAccess (regOffset .cmd) (.write w) 0 (s.accept w)

/-- A CMD write: accepted when BUSY = 0, held with no response and no effect when BUSY = 1 (20_memory.md R46). -/
def issueCmd (w : Word) (s : State) : State := if s.busy then { s with held := some w } else acceptCmd w s

/-- An 8-byte write of v to a register (20_memory.md R44, R46, R47). -/
def writeReg (r : Reg) (v : Word) (s : State) : State :=
  match r with
  | .cmd => issueCmd v s
  | .din => grantAccess (regOffset .din) (.write v) 0 { s with din := v }
  | .dout => refuseAccess (regOffset .dout) (.write v) s
  | .status => refuseAccess (regOffset .status) (.write v) s
  | .config => refuseAccess (regOffset .config) (.write v) s

/-- An access at an offset of the window (20_memory.md R42 to R48). -/
def windowAccess (off : BitVec 6) (size : AccessSize) (op : AccessOp) (s : State) : State :=
  if Supported off size then
    match regAt off, op with
    | none, _ => refuseAccess off op s
    | some r, .read => grantAccess off .read (s.readReg r) s
    | some r, .write v => writeReg r v s
  else refuseAccess off op s

/-- An access on the host bus. One outside the window is not decoded: no effect and no response (20_memory.md R40;
DEDUCED, notes/assumptions/5.md; unsafe where the platform answers it). -/
def busAccess (a : Access) (s : State) : State :=
  match windowOffset a.addr with
  | none => s
  | some off => windowAccess off a.size a.op s

end Sys2Proof.Machine
end

