-- ==== Sys2Proof/Machine/HostStep.lean ====
section
/-! DEFINITION. The host's step: one event reaches the engine's ports (70_reset_and_hazards.md R220, R221, R224). -/

namespace Sys2Proof.Machine

/-- A rising edge with `rst` high: every piece of the engine's state takes its reset value, and a command that has not
completed is abandoned (70_reset_and_hazards.md R221). The host's events and what it was answered are not the
engine's state, and stay (notes/assumptions/12.md). -/
def resetEdge (s : State) : State :=
  { State.reset with inputs := s.inputs, answers := s.answers, turn := s.turn, permCount := s.permCount }

/-- The events after the first are what the host still has to bring. -/
def State.dropInput (s : State) : State := { s with inputs := s.inputs.tail }

/-- The host can move: a held CMD write only when BUSY = 0, or when `rst` comes over it; a WAIT only when BUSY = 0;
any other event at once (20_memory.md R46, R47, R48; 30_encoding.md R67; 70_reset_and_hazards.md R221, R224). -/
def hostReady (s : State) : Bool :=
  match s.held, s.inputs with
  | some _, .rst :: _ => true
  | some _, _ => !s.busy
  | none, [] => false
  | none, .wait :: _ => !s.busy
  | none, .access _ :: _ => true
  | none, .rst :: _ => true

/-- The host moves now: always when it can and the engine cannot, and by the free value when both can
(70_reset_and_hazards.md R224; notes/assumptions/2.md). -/
def hostMoves (s : State) : Bool := hostReady s && (!s.busy || Config.hostFirst s.turn)

/-- One event, taken off the list of those the host still has to bring. -/
def takeEvent (e : HostEvent) (s : State) : State :=
  match e with
  | .access a => busAccess a s
  | .wait => windowAccess (regOffset .status) .b8 .read s
  | .rst => resetEdge s

/-- What the host does when it moves. A held CMD write is accepted when BUSY = 0, before any event behind it
(20_memory.md R46). `rst` over a write that is still held is outside the contract (93_implementation_defined.md I12;
notes/assumptions/4.md). -/
def hostStep (s : State) : Host.Outcome State Fault Refusal :=
  match s.held with
  | some w => if s.busy then .fault .accessAcrossReset else .next (acceptCmd w s)
  | none =>
    match s.inputs with
    | [] => .next s
    | e :: _ => .next (takeEvent e s.dropInput)

end Sys2Proof.Machine
end

