-- ==== Sys2Proof/Machine/Step.lean ====
section
/-! DEFINITION. One step of the whole: the host moves, or the engine completes its command, or nothing is enabled
(70_reset_and_hazards.md R224). -/

namespace Sys2Proof.Machine

/-- One step. With BUSY = 0 and nothing for the host to do the engine is idle and keeps its state
(notes/assumptions/15.md). -/
def step (s : State) : Host.Outcome State Fault Refusal :=
  if hostMoves s then hostStep s.nextTurn
  else if s.busy then complete s.nextTurn
  else .next s

/-- The state in which the word w, of nbits bits, is the accepted command and the engine is the agent that moves: the
next step completes it. It is what an accepted CMD write leaves (20_memory.md R46), with the host bringing nothing
more (notes/assumptions/9.md). -/
def State.withFetchWord (s : State) (nbits w : Nat) : State :=
  { s.accept (BitVec.ofNat 64 (w % 2 ^ nbits)) with inputs := [], held := s.held }

end Sys2Proof.Machine
end

