-- ==== Sys2Proof/Machine/HostProgram.lean ====
section
/-! DEFINITION. Host programs: the statements of 30_encoding.md R67, the pseudo-instructions of R68, and the result of
a command sequence (70_reset_and_hazards.md R233). The host's control flow is its own (10_state.md R26). -/

namespace Sys2Proof.Machine

/-- A statement of the host's assembly language (30_encoding.md R67). The name an RD binds is the host's, and the text form is
not parsed (notes/assumptions/16.md). -/
inductive HostStmt where
  | init (r d : Nat)
  | absorb (n : Nat)
  | squeeze (n : Nat)
  | wr (reg : Reg) (v : Word)
  | rd (reg : Reg)
  | wait
  deriving DecidableEq, Repr

/-- A pseudo-instruction (30_encoding.md R68). -/
inductive HostPseudo where
  | init128 (d : Nat)
  | init256 (d : Nat)
  | absorbV (n : Nat) (v : Word)
  | final
  | squeezeV (n : Nat)
  deriving DecidableEq, Repr

/-- `MemWrite(P_BASE + off(reg), 8, v)` (30_encoding.md R67). -/
def memWrite (reg : Reg) (v : Word) : HostEvent :=
  .access { addr := Config.base + (regOffset reg).toNat, size := .b8, op := .write v }

/-- `MemRead(P_BASE + off(reg), 8)` (30_encoding.md R67). -/
def memRead (reg : Reg) : HostEvent :=
  .access { addr := Config.base + (regOffset reg).toNat, size := .b8, op := .read }

/-- `0x01 | r << 8 | d << 16` (30_encoding.md R67). -/
def initWord (r d : Nat) : Word := 0x01#64 ||| (BitVec.ofNat 64 r <<< 8) ||| (BitVec.ofNat 64 d <<< 16)

/-- `opc | n << 8` (30_encoding.md R67). -/
def countWord (opc : Word) (n : Nat) : Word := opc ||| (BitVec.ofNat 64 n <<< 8)

/-- The event of a statement; none where the assembler rejects it: r or d outside [0, 255], n outside [0, 15], or a
WR to a register other than CMD and DIN (30_encoding.md R67). -/
def assemble : HostStmt → Option HostEvent
  | .init r d => if r ≤ 255 ∧ d ≤ 255 then some (memWrite .cmd (initWord r d)) else none
  | .absorb n => if n ≤ 15 then some (memWrite .cmd (countWord 0x02 n)) else none
  | .squeeze n => if n ≤ 15 then some (memWrite .cmd (countWord 0x03 n)) else none
  | .wr .cmd v => some (memWrite .cmd v)
  | .wr .din v => some (memWrite .din v)
  | .wr .dout _ => none
  | .wr .status _ => none
  | .wr .config _ => none
  | .rd reg => some (memRead reg)
  | .wait => some .wait

/-- The statements a pseudo-instruction stands for (30_encoding.md R68). -/
def expand : HostPseudo → List HostStmt
  | .init128 d => [.init 168 d]
  | .init256 d => [.init 136 d]
  | .absorbV n v => [.wr .din v, .absorb n]
  | .final => [.squeeze 0]
  | .squeezeV n => [.squeeze n, .wait, .rd .dout]

/-- The events of a program, in order; none where one statement is rejected. -/
def assembleAll : List HostStmt → Option (List HostEvent)
  | [] => some []
  | stmt :: rest =>
    match assemble stmt, assembleAll rest with
    | some e, some es => some (e :: es)
    | _, _ => none

/-- What a host has of a command sequence: whether it has seen BUSY = 0 since its last CMD write, the DOUT values it
read with that seen, oldest first, and the last such STATUS word (70_reset_and_hazards.md R227, R233). -/
structure SequenceResult where
  synced : Bool
  douts : List Word
  status : Option Word
  deriving DecidableEq, Repr

/-- One response, added to what the host has. -/
def SequenceResult.add (acc : SequenceResult) (r : Response) : SequenceResult :=
  match r.status, r.op, regAt r.offset with
  | .okay, .write _, some .cmd => { acc with synced := false, status := none }
  | .okay, .read, some .status =>
    if r.data.getLsbD 0 then acc else { acc with synced := true, status := some r.data }
  | .okay, .read, some .dout => if acc.synced then { acc with douts := acc.douts ++ [r.data] } else acc
  | _, _, _ => acc

/-- The result of the sequence the answers show: it has ended when `status` is present (70_reset_and_hazards.md R233).
DESIGN CHOICE: the rule gives a sequence's end and not its beginning; here it begins with the record of answers, with
BUSY = 0 taken as seen, so DOUT reads before the first CMD write count, and those before a later `rst` stay
(notes/assumptions/20.md; unsafe). -/
def sequenceResult (s : State) : SequenceResult :=
  s.answers.reverse.foldl SequenceResult.add { synced := true, douts := [], status := none }

end Sys2Proof.Machine
end

