-- ==== Sys2Proof/Machine/Reference.lean ====
section
/-! DEFINITION. The sponge in blocks and streams, as the spec's prose describes it beside the byte-at-a-time rules:
whole blocks straight from the message (43_absorb.md R142), the output as one stream (44_squeeze.md R164), and a
sequence of commands (95_test_vectors.md section 1.2, property 1). The claims compare the commands with these. -/

namespace Sys2Proof.Machine

/-- XORs bytes into the state from state byte j on. -/
def xorBytesFrom (a : Lanes) (j : Nat) : List Byte → Lanes
  | [] => a
  | b :: bs => xorBytesFrom (xorByteInto a j b) (j + 1) bs

/-- Consumes whole r-byte blocks: each is XORed into state bytes 0..r-1 and permuted; what is left is the tail
(43_absorb.md R142). The first argument bounds the number of blocks. -/
def absorbBlocks : Nat → Nat → Lanes → List Byte → Lanes × List Byte
  | 0, _, a, m => (a, m)
  | fuel + 1, r, a, m =>
    if r ≤ m.length then absorbBlocks fuel r (keccakP (xorBytesFrom a 0 (m.take r))) (m.drop r) else (a, m)

/-- The pending message bytes, BUF[0..BUFLEN-1] (10_state.md R16). -/
def pendingBytes (s : State) : List Byte := (List.range s.buflen.toNat).map (bufAt s.buf)

/-- The state after k permutations. -/
def permuted (k : Nat) (a : Lanes) : Lanes := Nat.repeat keccakP k a

/-- Byte k of the output stream that starts at the first rate byte of the lane state a: blocks of r bytes, a
permutation between two blocks (44_squeeze.md R163, R164). -/
def streamByte (a : Lanes) (r k : Nat) : Byte := stateByte (permuted (k / r) a) (k % r)

/-- A command completed on a value of PDIN, with no regard to the handshake. -/
def runCommand (s : State) (c : Instr × Word) : State :=
  match exec c.1 { s with pdin := c.2 } with
  | .next t => t
  | .fault _ => s
  | .refused _ => s

/-- The DOUT values after each command of a sequence. -/
def outputsOf (s : State) : List (Instr × Word) → List Word
  | [] => []
  | c :: cs => (runCommand s c).dout :: outputsOf (runCommand s c) cs

/-- The output bytes of a sequence of SQUEEZE commands, each read from DOUT after its command; a command that does not
answer a next state ends the sequence (44_squeeze.md R164, 42_lane_codec.md R124). -/
def squeezedBytes (s : State) : List (BitVec 4) → List Byte
  | [] => []
  | n :: ns =>
    match exec (.squeeze n) s with
    | .next t => messageBytes t.dout n.toNat ++ squeezedBytes t ns
    | .fault _ => []
    | .refused _ => []

end Sys2Proof.Machine
end

