-- ==== Sys2Proof/Machine/Timing.lean ====
section
/-! DEFINITION. The cycle figures of 70_reset_and_hazards.md R225: timing only, no other rule depends on them. The
figures are the spec's design targets (notes/assumptions/7.md). -/

namespace Sys2Proof.Machine

/-- T_P = 12 / P_RPC, the cycles of one permutation (70_reset_and_hazards.md R225). -/
def permutationCycles (r : RoundsPerCycle) : Nat := 12 / r.toNat

/-- The cycles from acceptance to completion of a command that makes k Permute() calls: 1 + k * T_P
(70_reset_and_hazards.md R225). -/
def commandCycles (r : RoundsPerCycle) (k : Nat) : Nat := 1 + k * permutationCycles r

/-- k: the Permute() calls a command makes in a state (70_reset_and_hazards.md R225, R226). -/
def permutationsOf (i : Instr) (s : State) : Nat :=
  match exec i s with
  | .next t => t.permCount - s.permCount
  | .fault _ => 0
  | .refused _ => 0

/-- The cycles a command takes on this engine in a state (70_reset_and_hazards.md R225). -/
def completionCycles (i : Instr) (s : State) : Nat := commandCycles Config.rpc (permutationsOf i s)

end Sys2Proof.Machine
end

