-- ==== Sys2Proof/Safety.lean ====
section
/-! DEFINITION. What counts as a safe state and a reachable one, in the terms the claims use. -/

namespace Sys2Proof

open Sys2Proof.Machine

/-- ERR and ECAUSE are both 0, or the class and the code of one cause, and then some command has failed
(60_exceptions.md R200 to R203). The other values are never written. -/
def Safety.StatusLegal (s : State) : Prop :=
  (s.err = 0 ∧ s.ecause = 0) ∨
    (∃ c : Cause, s.err = classCode (causeClass c) ∧ s.ecause = causeCode c ∧ s.sticky = true)

/-- INVARIANT stands reported in no next state: it is a fault (60_exceptions.md R205, notes/assumptions/1.md). -/
def Safety.NoInvariantReport (s : State) : Prop := s.ecause ≠ causeCode .invariant

/-- A safe state: INV holds (10_state.md R27), the status fields are legal, and INVARIANT is not reported. -/
def Safety.Safe (s : State) : Prop := s.Inv ∧ Safety.StatusLegal s ∧ Safety.NoInvariantReport s

/-- The states a run from reset reaches, whatever the host brings. -/
inductive Safety.Reachable : State → Prop where
  | start (inputs : List HostEvent) : Safety.Reachable { State.reset with inputs := inputs }
  | step {s t : State} (h : Safety.Reachable s) (hs : Machine.step s = .next t) : Safety.Reachable t

end Sys2Proof
end

