-- ==== Sys2Proof/Certificates/Slice0/Obligations.lean ====
section
/-! DEFINITION. The statements for the provers, each from the rules of the spec it names. -/

open Sys2Proof Sys2Proof.Machine

/-! ### Command words (30_encoding.md) -/

/-- The decoder accepts exactly the words of the encoder: no bit of a command is dropped and no other word is taken
(30_encoding.md R61, R62, R65, R66). -/
def Obligations.DecodeExactlyEncode : Prop :=
  ∀ (i : Instr) (w : Word), decode w = .ok i ↔ w = encode i

/-- The three mask-and-pattern matches of R66 decide the command and its fields, and a word that matches none is no
command (30_encoding.md R66). -/
def Obligations.DecodeByMatches : Prop :=
  ∀ w : Word,
    (w &&& 0xFFFFFFFFFF0000FF#64 = 0x1#64 → decode w = .ok (.init (w.extractLsb' 8 8) (w.extractLsb' 16 8))) ∧
    (w &&& 0xFFFFFFFFFFFFF0FF#64 = 0x2#64 → decode w = .ok (.absorb (w.extractLsb' 8 4))) ∧
    (w &&& 0xFFFFFFFFFFFFF0FF#64 = 0x3#64 → decode w = .ok (.squeeze (w.extractLsb' 8 4))) ∧
    (w &&& 0xFFFFFFFFFF0000FF#64 ≠ 0x1#64 → w &&& 0xFFFFFFFFFFFFF0FF#64 ≠ 0x2#64 →
      w &&& 0xFFFFFFFFFFFFF0FF#64 ≠ 0x3#64 → decode w = .error .badOpcode ∨ decode w = .error .reservedBits)

/-- Words written out from the encoding examples, and words the map makes illegal (30_encoding.md section 4, R64, R65). -/
def Obligations.DecodeExamples : Prop :=
  decode 0x00000000001FA801#64 = .ok (.init 168 0x1F) ∧ decode 0x0000000000068801#64 = .ok (.init 136 0x06) ∧
    decode 0x0000000000000302#64 = .ok (.absorb 3) ∧ decode 0x0000000000000803#64 = .ok (.squeeze 8) ∧
    decode 0x0000000000000000#64 = .error .badOpcode ∧ decode 0x00000000011FA801#64 = .error .reservedBits ∧
    decode 0x0000000000001102#64 = .error .reservedBits

/-- The assembler's word for a command whose operands fit their fields is the command's encoding
(30_encoding.md R61, R62, R67). -/
def Obligations.AssembledWordsEncode : Prop :=
  (∀ r d : Nat, r ≤ 255 → d ≤ 255 → initWord r d = encode (.init (BitVec.ofNat 8 r) (BitVec.ofNat 8 d))) ∧
    (∀ n : Nat, n ≤ 15 → countWord 0x02 n = encode (.absorb (BitVec.ofNat 4 n)) ∧
      countWord 0x03 n = encode (.squeeze (BitVec.ofNat 4 n)))

/-! ### Steps (70_reset_and_hazards.md R224) -/

/-- Where the engine moves and PCMD decodes to a command, the step is that command's meaning, with BUSY falling to 0
on the state it reaches; the model's turn counter has advanced (70_reset_and_hazards.md R224). -/
def Obligations.StepRunsDecoded : Prop :=
  ∀ (s : State) (i : Instr), s.busy = true → hostMoves s = false → decode s.pcmd = .ok i →
    step s = releaseOutcome (exec i { s with turn := s.turn + 1 })

/-- A word that is no command completes with its own error and nothing else, and BUSY falls to 0
(70_reset_and_hazards.md R224, 60_exceptions.md R202). -/
def Obligations.StepRejectsWord : Prop :=
  ∀ (s : State) (c : Cause), s.busy = true → hostMoves s = false → decode s.pcmd = .error c →
    step s = .next { s with err := 1, ecause := causeCode c, sticky := true, busy := false, turn := s.turn + 1 }

/-- Which agent moves: with BUSY = 1 the engine completes unless the host can move, and then either may; with BUSY = 0
only the host can move, and an engine with nothing to do keeps its state (70_reset_and_hazards.md R224; that an idle
step keeps the state is the model's choice, log 15). -/
def Obligations.AgentsInterleave : Prop :=
  ∀ s : State,
    (s.busy = true → hostReady s = false → step s = complete s.nextTurn) ∧
    (s.busy = true → hostReady s = true → step s = complete s.nextTurn ∨ step s = hostStep s.nextTurn) ∧
    (s.busy = false → hostReady s = true → step s = hostStep s.nextTurn) ∧
    (s.busy = false → hostReady s = false → step s = .next s)

/-- A step answers a next state, but for two cases: `rst` comes over a CMD write that is still held, or a command
completes on a context outside INV (93_implementation_defined.md I12, I4). -/
def Obligations.StepProgress : Prop :=
  ∀ s : State, (∃ t, step s = .next t) ∨
    (step s = .fault .accessAcrossReset ∧ s.busy = true ∧ s.held.isSome = true ∧ s.inputs.head? = some .rst) ∨
    (∃ r, step s = .fault (.invariantFailed r) ∧ s.busy = true ∧ s.ctxv = true ∧ ¬s.Inv)

/-! ### INIT (45_context.md) -/

/-- INIT with a legal rate: the next state, whole; every field not named keeps its value (45_context.md R180). -/
def Obligations.InitCompletes : Prop :=
  ∀ (rate dsep : BitVec 8) (s : State), 1 ≤ rate.toNat → rate.toNat ≤ 199 →
    exec (.init rate dsep) s = .next
      { s with lanes := Vector.replicate 25 0, buf := Vector.replicate 199 0, buflen := 0, fin := false, cur := 0,
               rate := rate, dsep := dsep, ctxv := true, dout := 0, err := 0, ecause := 0 }

/-- The whole of INIT on any word with opcode 0x01, at completion: RSVD, then the rate, then the fresh context; a
failure changes ERR, ECAUSE and STICKY only (45_context.md R180, 70_reset_and_hazards.md R224). -/
def Obligations.InitWordOutcome : Prop :=
  ∀ s : State, s.pcmd.extractLsb' 0 8 = 0x01#8 →
    complete s =
      if s.pcmd.extractLsb' 24 40 ≠ 0#40 then
        .next { s with err := 1, ecause := 0x02, sticky := true, busy := false }
      else if s.pcmd.extractLsb' 8 8 = 0#8 ∨ 200 ≤ (s.pcmd.extractLsb' 8 8).toNat then
        .next { s with err := 1, ecause := 0x03, sticky := true, busy := false }
      else
        .next { s with lanes := Vector.replicate 25 0, buf := Vector.replicate 199 0, buflen := 0, fin := false,
                       cur := 0, rate := s.pcmd.extractLsb' 8 8, dsep := s.pcmd.extractLsb' 16 8, ctxv := true,
                       dout := 0, err := 0, ecause := 0, busy := false }

/-- After an INIT the outputs of any commands depend on nothing that came before it: two engines of any history that
complete the same INIT and then the same commands on the same data show the same DOUT values
(45_context.md R180; 95_test_vectors.md section 1.2 property 1). -/
def Obligations.OutputsForgetHistory : Prop :=
  ∀ (s₁ s₂ : State) (rate dsep : BitVec 8) (w : Word) (cs : List (Instr × Word)), 1 ≤ rate.toNat → rate.toNat ≤ 199 →
    outputsOf s₁ ((.init rate dsep, w) :: cs) = outputsOf s₂ ((.init rate dsep, w) :: cs)

/-! ### ABSORB (43_absorb.md) -/

/-- ABSORB on a context that is not finalized: the next state. BUFLEN counts modulo RATE, one permutation for each
block that completes, and nothing but S, BUF, BUFLEN, ERR and ECAUSE (and the model's count) changes; S and the
pending bytes are what the whole blocks of the pending bytes and the message bytes of PDIN leave
(43_absorb.md R140, R141, R142; 42_lane_codec.md R123; 70_reset_and_hazards.md R226). -/
def Obligations.AbsorbCompletes : Prop :=
  ∀ (n : BitVec 4) (s : State), n.toNat ≤ 8 → s.ctxv = true → s.Inv → s.fin = false →
    ∃ t, exec (.absorb n) s = .next t ∧
      t = { s with lanes := t.lanes, buf := t.buf,
                   buflen := BitVec.ofNat 8 ((s.buflen.toNat + n.toNat) % s.rate.toNat),
                   permCount := s.permCount + (s.buflen.toNat + n.toNat) / s.rate.toNat,
                   err := 0, ecause := 0 } ∧
      (t.lanes, pendingBytes t) =
        absorbBlocks (s.buflen.toNat + n.toNat) s.rate.toNat s.lanes
          (pendingBytes s ++ (List.range n.toNat).map fun k => s.pdin.extractLsb' (8 * k) 8)

/-- Absorbing bytes one at a time leaves the lanes and the pending bytes that absorbing whole blocks of the pending
bytes followed by the message leaves (43_absorb.md R142). -/
def Obligations.AbsorbIsBlockwise : Prop :=
  ∀ (s : State) (m : List Byte), s.ctxv = true → s.Inv → s.fin = false →
    ((absorbBytes s m).lanes, pendingBytes (absorbBytes s m)) =
      absorbBlocks (pendingBytes s ++ m).length s.rate.toNat s.lanes (pendingBytes s ++ m)

/-- One ABSORB of n + m bytes is an ABSORB of the first n and one of the next m (43_absorb.md R142). -/
def Obligations.AbsorbSplit : Prop :=
  ∀ (n m : BitVec 4) (s t u : State), n.toNat + m.toNat ≤ 8 → s.ctxv = true → s.Inv → s.fin = false →
    exec (.absorb n) s = .next t → exec (.absorb m) { t with pdin := s.pdin >>> (8 * n.toNat) } = .next u →
    exec (.absorb (n + m)) s = .next { u with pdin := s.pdin }

/-- The bytes of PDIN from N on are ignored (42_lane_codec.md R123). -/
def Obligations.AbsorbIgnoresUnusedBytes : Prop :=
  ∀ (n : BitVec 4) (s t : State) (v : Word), (∀ k < n.toNat, byteOf v k = byteOf s.pdin k) →
    exec (.absorb n) s = .next t → exec (.absorb n) { s with pdin := v } = .next { t with pdin := v }

/-! ### SQUEEZE (44_squeeze.md) -/

/-- Finalize: D after the pending bytes, 0x80 into byte RATE - 1, one permutation, the squeezing phase, the buffer
zero; nothing else changes (44_squeeze.md R160). -/
def Obligations.FinalizePads : Prop :=
  ∀ s : State, s.ctxv = true → s.Inv → s.fin = false →
    finalize s =
      { s with lanes := keccakP (xorByteInto (xorBytesFrom s.lanes 0 (pendingBytes s ++ [s.dsep])) (s.rate.toNat - 1) 0x80),
               buf := Vector.replicate 199 0, buflen := 0, fin := true, cur := 0, permCount := s.permCount + 1 }

/-- With BUFLEN = RATE - 1, D and 0x80 meet: byte RATE - 1 changes by D ^ 0x80 before the permutation
(44_squeeze.md R161). -/
def Obligations.PadBytesShare : Prop :=
  ∀ s : State, s.ctxv = true → s.Inv → s.fin = false → s.buflen.toNat = s.rate.toNat - 1 →
    stateByte (padInput s).lanes (s.rate.toNat - 1) =
      stateByte s.lanes (s.rate.toNat - 1) ^^^ (s.dsep ^^^ 0x80)

/-- A SQUEEZE on a context that is not finalized is the same SQUEEZE on the finalized one (44_squeeze.md R162). -/
def Obligations.SqueezeFinalizesFirst : Prop :=
  ∀ (n : BitVec 4) (s : State), n.toNat ≤ 8 → s.ctxv = true → s.Inv → s.fin = false →
    exec (.squeeze n) s = exec (.squeeze n) (finalize s)

/-- SQUEEZE with a context: the next state. Nothing but S, BUF, BUFLEN, FIN, CUR, DOUT, ERR and ECAUSE (and the
model's count) changes, and BUF only where it finalizes; DOUT's bytes from N on are zero
(44_squeeze.md R160, R162; 42_lane_codec.md R124). -/
def Obligations.SqueezeCompletes : Prop :=
  ∀ (n : BitVec 4) (s : State), n.toNat ≤ 8 → s.ctxv = true → s.Inv →
    ∃ t, exec (.squeeze n) s = .next t ∧
      t = { s with lanes := t.lanes, buf := if s.fin then s.buf else Vector.replicate 199 0, buflen := 0, fin := true,
                   cur := t.cur, dout := t.dout, err := 0, ecause := 0, permCount := t.permCount } ∧
      (∀ k, n.toNat ≤ k → k < 8 → byteOf t.dout k = 0)

/-- A SQUEEZE of N bytes on a finalized context puts bytes CUR, CUR + 1, … of the output stream into DOUT, refills
lazily, and leaves CUR after the last byte (44_squeeze.md R162, R163, R164; 42_lane_codec.md R124). -/
def Obligations.SqueezeReadsStream : Prop :=
  ∀ (n : BitVec 4) (s : State), 1 ≤ n.toNat → n.toNat ≤ 8 → s.ctxv = true → s.Inv → s.fin = true →
    ∃ t, exec (.squeeze n) s = .next t ∧
      (∀ k < n.toNat, byteOf t.dout k = streamByte s.lanes s.rate.toNat (s.cur.toNat + k)) ∧
      t.lanes = permuted ((s.cur.toNat + n.toNat - 1) / s.rate.toNat) s.lanes ∧
      t.cur.toNat = (s.cur.toNat + n.toNat - 1) % s.rate.toNat + 1 ∧
      t.permCount = s.permCount + (s.cur.toNat + n.toNat - 1) / s.rate.toNat

/-- A SQUEEZE of n bytes and then one of m bytes are one SQUEEZE of n + m bytes: its DOUT is the n bytes of the first
followed by the m bytes of the second, and every other field is what the second leaves, with FIN at either value
before. The bytes of any sequence of SQUEEZE commands, one after another, are the output of one squeeze of their sum,
of any length (44_squeeze.md R164). -/
def Obligations.SqueezeContinues : Prop :=
  (∀ (n m : BitVec 4) (s : State), n.toNat + m.toNat ≤ 8 → s.ctxv = true → s.Inv →
    ∃ t u, exec (.squeeze n) s = .next t ∧ exec (.squeeze m) t = .next u ∧
      exec (.squeeze (n + m)) s = .next { u with dout := t.dout ||| (u.dout <<< (8 * n.toNat)) }) ∧
  (∀ (ns : List (BitVec 4)) (s : State), (∀ n ∈ ns, n.toNat ≤ 8) → s.ctxv = true → s.Inv →
    squeezedBytes s ns = (squeezeBytes (ns.map BitVec.toNat).sum (ensureFinal s)).1)

/-- The bytes of an output of any length from a finalized context are the stream's (44_squeeze.md R163, R164). -/
def Obligations.SqueezeBytesAreStream : Prop :=
  ∀ (n : Nat) (s : State), s.ctxv = true → s.Inv → s.fin = true →
    (squeezeBytes n s).1 = (List.range n).map fun k => streamByte s.lanes s.rate.toNat (s.cur.toNat + k)

/-- SQUEEZE of no bytes: on a finalized context only DOUT, ERR and ECAUSE change; on another it also finalizes
(44_squeeze.md R165). -/
def Obligations.SqueezeNothing : Prop :=
  ∀ s : State, s.ctxv = true → s.Inv →
    (s.fin = true → exec (.squeeze 0) s = .next { s with dout := 0, err := 0, ecause := 0 }) ∧
    (s.fin = false → exec (.squeeze 0) s = .next { finalize s with dout := 0, err := 0, ecause := 0 })

/-- Output comes from the rate region only: where no refill is needed, two engines whose rate regions agree show the
same bytes, whatever their capacity holds (10_state.md R12, 44_squeeze.md R162). -/
def Obligations.SqueezeHidesCapacity : Prop :=
  ∀ (n : BitVec 4) (s₁ s₂ t₁ t₂ : State), s₁.ctxv = true → s₂.ctxv = true → s₁.Inv → s₂.Inv →
    s₁.fin = true → s₂.fin = true → s₁.rate = s₂.rate → s₁.cur = s₂.cur → n.toNat ≤ 8 →
    s₁.cur.toNat + n.toNat ≤ s₁.rate.toNat →
    (∀ j < s₁.rate.toNat, stateByte s₁.lanes j = stateByte s₂.lanes j) →
    exec (.squeeze n) s₁ = .next t₁ → exec (.squeeze n) s₂ = .next t₂ → t₁.dout = t₂.dout

/-! ### Permutation and codec (41_permutation.md, 42_lane_codec.md) -/

/-- Every bit of a rotation, and the counts 0 and 64 (41_permutation.md R100). -/
def Obligations.RotationBits : Prop :=
  ∀ (v : Word) (s : Nat),
    (∀ i < 64, (rotl64 v s).getLsbD ((i + s) % 64) = v.getLsbD i) ∧ rotl64 v 0 = v ∧ rotl64 v 64 = v

/-- Every used entry and every other entry of the round constant table is what its generating LFSR gives
(41_permutation.md R101). -/
def Obligations.RoundConstantsGenerated : Prop :=
  ∀ i < 24, ∀ b < 64,
    (roundConstant i).getLsbD b = (List.range 7).any fun j => decide (b = 2 ^ j - 1) && lfsrBit (j + 7 * i)

/-- θ on every lane (41_permutation.md R102). -/
def Obligations.ThetaLanes : Prop :=
  ∀ (a : Lanes) (x y : Nat), x < 5 → y < 5 →
    laneXY (theta a) x y =
      laneXY a x y ^^^
        (((laneXY a ((x + 4) % 5) 0 ^^^ laneXY a ((x + 4) % 5) 1 ^^^ laneXY a ((x + 4) % 5) 2 ^^^
            laneXY a ((x + 4) % 5) 3 ^^^ laneXY a ((x + 4) % 5) 4)) ^^^
          rotl64 (laneXY a ((x + 1) % 5) 0 ^^^ laneXY a ((x + 1) % 5) 1 ^^^ laneXY a ((x + 1) % 5) 2 ^^^
            laneXY a ((x + 1) % 5) 3 ^^^ laneXY a ((x + 1) % 5) 4) 1)

/-- The in-place walk of ρ and π in closed form, with the offset table R[x][y] (41_permutation.md R103). -/
def Obligations.RhoPiClosedForm : Prop :=
  ∀ (a : Lanes) (x y : Nat), x < 5 → y < 5 →
    laneXY (rhoPi a) y ((2 * x + 3 * y) % 5) =
      rotl64 (laneXY a x y)
        (([[0, 1, 62, 28, 27], [36, 44, 6, 55, 20], [3, 10, 43, 25, 39], [41, 45, 15, 21, 8], [18, 2, 61, 56, 14]].getD
            y []).getD x 0)

/-- χ on every lane, from the row before any write, and ι on lane 0 only, by RC[i] (41_permutation.md R104, R105). -/
def Obligations.ChiIotaLanes : Prop :=
  (∀ (a : Lanes) (x y : Nat), x < 5 → y < 5 →
    laneXY (chi a) x y =
      laneXY a x y ^^^ ((~~~(laneXY a ((x + 1) % 5) y)) &&& laneXY a ((x + 2) % 5) y)) ∧
  (∀ (a : Lanes) (i j : Nat), j < 25 →
    laneAt (iota a i) j = if j = 0 then laneAt a 0 ^^^ roundConstant i else laneAt a j)

/-- XorBlock(n) on every state byte: the bytes below n get the buffer's, the others, the capacity among them, keep
theirs (42_lane_codec.md R120, 10_state.md R12). -/
def Obligations.XorBlockBytes : Prop :=
  ∀ (a : Lanes) (buf : Buffer) (n j : Nat), n ≤ 199 → j < 200 →
    stateByte (xorBlockInto a buf n) j = if j < n then stateByte a j ^^^ bufAt buf j else stateByte a j

/-- Eight buffer bytes that fill lane L change it by the 64-bit value they make, least significant byte first
(42_lane_codec.md R125). -/
def Obligations.XorBlockLane : Prop :=
  ∀ (a : Lanes) (buf : Buffer) (n l : Nat), n ≤ 199 → 8 * l + 8 ≤ n →
    laneAt (xorBlockInto a buf n) l =
      laneAt a l ^^^
        ((bufAt buf (8 * l)).setWidth 64 ||| (bufAt buf (8 * l + 1)).setWidth 64 <<< 8 |||
          (bufAt buf (8 * l + 2)).setWidth 64 <<< 16 ||| (bufAt buf (8 * l + 3)).setWidth 64 <<< 24 |||
          (bufAt buf (8 * l + 4)).setWidth 64 <<< 32 ||| (bufAt buf (8 * l + 5)).setWidth 64 <<< 40 |||
          (bufAt buf (8 * l + 6)).setWidth 64 <<< 48 ||| (bufAt buf (8 * l + 7)).setWidth 64 <<< 56)

/-- XorStateByte(j, b) writes byte j of the state only, by XOR (42_lane_codec.md R121). -/
def Obligations.XorStateByteBytes : Prop :=
  ∀ (a : Lanes) (b : Byte) (j k : Nat), j < 200 → k < 200 →
    stateByte (xorByteInto a j b) k = if k = j then stateByte a j ^^^ b else stateByte a k

/-- Byte k of the packed value is output byte k, and zero past the last; unpacking a 64-bit value into its eight bytes
and packing them gives the value (42_lane_codec.md R123, R124; 20_memory.md R49). -/
def Obligations.PackedBytes : Prop :=
  (∀ (o : List Byte) (k : Nat), o.length ≤ 8 → k < 8 → byteOf (packBytes o) k = o.getD k 0) ∧
    ∀ v : Word, packBytes (messageBytes v 8) = v

/-! ### Errors (60_exceptions.md) -/

/-- A command that fails writes ERR, ECAUSE and STICKY and nothing else; one that succeeds leaves STICKY; a fault is
INVARIANT, with ERR = 3, ECAUSE = 0x07 and STICKY = 1 in the state it carries and nothing else changed, and only where
a context is outside INV (60_exceptions.md R202, R203, R205). -/
def Obligations.FailureChangesNothingElse : Prop :=
  ∀ (i : Instr) (s : State),
    (∃ c : Cause, c ≠ .invariant ∧
      exec i s = .next { s with err := classCode (causeClass c), ecause := causeCode c, sticky := true }) ∨
    (∃ t, exec i s = .next t ∧ t.err = 0 ∧ t.ecause = 0 ∧ t.sticky = s.sticky) ∨
    (exec i s = .fault (.invariantFailed { s with err := 3, ecause := 0x07, sticky := true }) ∧
      s.ctxv = true ∧ ¬s.Inv)

/-- The first check that fails, in the fixed order, is the one a completed command reports, with its class, and
nothing else changes; INVARIANT is a fault that carries the state the engine reports
(60_exceptions.md R200, R201, R204, R205). -/
def Obligations.ErrorPriority : Prop :=
  ∀ s : State,
    let w := s.pcmd
    let op := w.extractLsb' 0 8
    let failed (cls : BitVec 4) (cause : BitVec 8) : Host.Outcome State Fault Refusal :=
      .next { s with err := cls, ecause := cause, sticky := true, busy := false }
    let formatL := op = 0x02#8 ∨ op = 0x03#8
    let rsvd := (op = 0x01#8 ∧ w.extractLsb' 24 40 ≠ 0) ∨ (formatL ∧ w.extractLsb' 12 52 ≠ 0)
    let badLength := formatL ∧ 9 ≤ (w.extractLsb' 8 4).toNat
    (op ≠ 0x01#8 ∧ ¬formatL → complete s = failed 1 0x01) ∧
    (rsvd → complete s = failed 1 0x02) ∧
    (op = 0x01#8 ∧ ¬rsvd ∧ (w.extractLsb' 8 8 = 0 ∨ 200 ≤ (w.extractLsb' 8 8).toNat) → complete s = failed 1 0x03) ∧
    (badLength ∧ ¬rsvd → complete s = failed 1 0x04) ∧
    (formatL ∧ ¬rsvd ∧ ¬badLength ∧ s.ctxv = false → complete s = failed 2 0x05) ∧
    (formatL ∧ ¬rsvd ∧ ¬badLength ∧ s.ctxv = true ∧ ¬s.Inv →
      complete s = .fault (.invariantFailed { s with err := 3, ecause := 0x07, sticky := true, busy := false })) ∧
    (op = 0x02#8 ∧ ¬rsvd ∧ ¬badLength ∧ s.ctxv = true ∧ s.Inv ∧ s.fin = true → complete s = failed 2 0x06)

/-- ABSORB and SQUEEZE of a legal length fail with UsageError(NO_CONTEXT) while there is no context, and an ABSORB, of
no bytes too, with UsageError(ABSORB_AFTER_FINAL) after finalization; the context stays
(70_reset_and_hazards.md R222, 10_state.md R15, 43_absorb.md R140, 60_exceptions.md R202). -/
def Obligations.UsageErrors : Prop :=
  ∀ (n : BitVec 4) (s : State), n.toNat ≤ 8 →
    (s.ctxv = false → exec (.absorb n) s = .next { s with err := 2, ecause := 0x05, sticky := true } ∧
      exec (.squeeze n) s = .next { s with err := 2, ecause := 0x05, sticky := true }) ∧
    (s.ctxv = true → s.Inv → s.fin = true →
      exec (.absorb n) s = .next { s with err := 2, ecause := 0x06, sticky := true })

/-! ### Register window (20_memory.md) -/

/-- Refused accesses: a size other than 8 bytes, an offset that is no multiple of 8, a reserved offset, or a write to
DOUT, STATUS or CONFIG gets SLVERR with read data 0 and changes no state (20_memory.md R42, R43, R44; 60_exceptions.md R208). -/
def Obligations.RefusedAccesses : Prop :=
  ∀ (off : BitVec 6) (size : AccessSize) (op : AccessOp) (s : State),
    (size ≠ .b8 ∨ off.toNat % 8 ≠ 0 ∨ off = 0x28 ∨ off = 0x30 ∨ off = 0x38 ∨
      ((off = 0x10 ∨ off = 0x18 ∨ off = 0x20) ∧ op ≠ .read)) →
    windowAccess off size op s =
      { s with answers := { offset := off, op := op, status := .slverr, data := 0 } :: s.answers }

/-- An 8-byte read of each register gets OKAY and its current value, CMD 0, and has no side effect, with BUSY at
either value (20_memory.md R45, R48). -/
def Obligations.ReadsAnswer : Prop :=
  ∀ s : State,
    let answered (off : BitVec 6) (v : Word) : State :=
      { s with answers := { offset := off, op := .read, status := .okay, data := v } :: s.answers }
    windowAccess 0x00 .b8 .read s = answered 0x00 0 ∧ windowAccess 0x08 .b8 .read s = answered 0x08 s.din ∧
    windowAccess 0x10 .b8 .read s = answered 0x10 s.dout ∧
    windowAccess 0x18 .b8 .read s = answered 0x18 s.statusWord ∧
    windowAccess 0x20 .b8 .read s = answered 0x20 s.configWord

/-- An 8-byte write to DIN gets OKAY and sets DIN, with BUSY at either value, and changes nothing else, PDIN included
(20_memory.md R47). -/
def Obligations.DinWrite : Prop :=
  ∀ (v : Word) (s : State),
    windowAccess 0x08 .b8 (.write v) s =
      { s with din := v, answers := { offset := 0x08, op := .write v, status := .okay, data := 0 } :: s.answers }

/-- An 8-byte write to CMD, with no write held before it: accepted in one step with BUSY = 0; with BUSY = 1 held, with
no response and no other effect until the completion, which leaves it held, and accepted in the next step, before any
access or WAIT behind it (20_memory.md R46). -/
def Obligations.CmdWrite : Prop :=
  ∀ (w : Word) (s : State),
    let accepted (u : State) : State :=
      { u with pcmd := w, pdin := u.din, busy := true, held := none,
               answers := { offset := 0x00, op := .write w, status := .okay, data := 0 } :: u.answers }
    (s.held = none → s.busy = false → windowAccess 0x00 .b8 (.write w) s = accepted s) ∧
    (s.held = none → s.busy = true → windowAccess 0x00 .b8 (.write w) s = { s with held := some w }) ∧
    (s.held = some w → s.busy = false → s.inputs.head? ≠ some .rst → step s = .next (accepted s.nextTurn)) ∧
    (s.held = some w → s.busy = true → s.inputs.head? ≠ some .rst → step s = complete s.nextTurn ∧
      ∀ t, complete s.nextTurn = .next t → t.held = some w ∧ t.busy = false)

/-- The window is the 64 bytes from P_BASE: an address in it decodes to its offset; one outside it has no effect
(20_memory.md R40; that the engine gives it no response is the model's choice, log 5). -/
def Obligations.WindowDecode : Prop :=
  (∀ off : BitVec 6, windowOffset (Config.base + off.toNat) = some off) ∧
    (∀ (a : Access) (s : State), (a.addr < Config.base ∨ Config.base + 64 ≤ a.addr) → busAccess a s = s) ∧
    Config.base % 64 = 0

/-- The STATUS word's fields (10_state.md R22). -/
def Obligations.StatusFields : Prop :=
  ∀ s : State,
    s.statusWord.getLsbD 0 = s.busy ∧ s.statusWord.getLsbD 1 = s.ctxv ∧ s.statusWord.getLsbD 2 = s.fin ∧
    s.statusWord.getLsbD 3 = s.sticky ∧ s.statusWord.extractLsb' 4 4 = s.err ∧
    s.statusWord.extractLsb' 8 8 = s.ecause ∧ s.statusWord.extractLsb' 16 8 = s.buflen ∧
    s.statusWord.extractLsb' 24 8 = s.cur ∧ s.statusWord.extractLsb' 32 32 = 0

/-- The CONFIG word's fields: RATE, DSEP, 12, 12, a legal P_RPC, zero (10_state.md R23, 00_scope.md R1). -/
def Obligations.ConfigFields : Prop :=
  ∀ s : State,
    s.configWord.extractLsb' 0 8 = s.rate ∧ s.configWord.extractLsb' 8 8 = s.dsep ∧
    s.configWord.extractLsb' 16 8 = 12 ∧ s.configWord.extractLsb' 24 8 = 12 ∧
    (s.configWord.extractLsb' 32 8).toNat ∈ [1, 2, 3, 4, 6, 12] ∧ s.configWord.extractLsb' 40 24 = 0

/-- While BUSY = 1 what the host does, other than `rst`, changes nothing a command writes: only DIN, the bus port and the
host's own events move, and PCMD and PDIN keep the accepted command
(70_reset_and_hazards.md R229, R230; 20_memory.md R47, R51). -/
def Obligations.BusyHidesCommand : Prop :=
  ∀ s t : State, s.busy = true → s.inputs.head? ≠ some .rst → hostStep s.nextTurn = .next t →
    t = { s with din := t.din, held := t.held, answers := t.answers, inputs := s.inputs.tail, turn := s.turn + 1 }

/-- A host that issues a SQUEEZE to an idle engine, waits, and reads DOUT reads that SQUEEZE's DOUT, whatever the
timing (70_reset_and_hazards.md R227, 30_encoding.md R68). -/
def Obligations.WaitedReadIsCurrent : Prop :=
  ∀ (n : BitVec 4) (s t : State), s.busy = false → s.held = none →
    s.inputs = [memWrite .cmd (encode (.squeeze n)), .wait, memRead .dout] → exec (.squeeze n) s = .next t →
    ∃ u, Host.Core.run Sys2Proof.core 4 s = .next u ∧ u.busy = false ∧ u.inputs = [] ∧
      u.answers.head? = some { offset := 0x10, op := .read, status := .okay, data := t.dout }

/-- A host that reads DOUT without waiting reads the value from before the command or the one after it
(70_reset_and_hazards.md R227, 93_implementation_defined.md I5). -/
def Obligations.UnwaitedReadIsOldOrNew : Prop :=
  ∀ (n : BitVec 4) (s t : State), s.busy = false → s.held = none →
    s.inputs = [memWrite .cmd (encode (.squeeze n)), memRead .dout] → exec (.squeeze n) s = .next t →
    ∃ (u : State) (v : Word), Host.Core.run Sys2Proof.core 3 s = .next u ∧ u.busy = false ∧
      (v = s.dout ∨ v = t.dout) ∧
      u.answers.head? = some { offset := 0x10, op := .read, status := .okay, data := v }

/-! ### Invariants and rules over every step -/

/-- INV is kept by every step (10_state.md R27). -/
def Obligations.InvKept : Prop :=
  ∀ s t : State, s.Inv → step s = .next t → t.Inv

/-- The legal values of ERR and ECAUSE are kept by every step: the codes above are never written
(60_exceptions.md R200, R201, R202, R203). -/
def Obligations.StatusLegalKept : Prop :=
  ∀ s t : State, Safety.StatusLegal s → step s = .next t → Safety.StatusLegal t

/-- From a safe state no step ends in the INVARIANT fault, and the next state is safe
(60_exceptions.md R205, 10_state.md R27). -/
def Obligations.SafeKept : Prop :=
  ∀ s : State, Safety.Safe s →
    (∀ t, step s = .next t → Safety.Safe t) ∧ ∀ r, step s ≠ .fault (.invariantFailed r)

/-- The state after reset is safe (10_state.md R27, R28). -/
def Obligations.ResetSafe : Prop := Safety.Safe State.reset

/-- Every state a run from reset reaches is safe, whatever the host brings and however the agents interleave: the
INVARIANT error is unreachable (60_exceptions.md R205, 10_state.md R27). -/
def Obligations.ReachableSafe : Prop :=
  ∀ s : State, Safety.Reachable s → Safety.Safe s ∧ ∀ r, step s ≠ .fault (.invariantFailed r)

/-- STICKY and CTXV are cleared by `rst` only (70_reset_and_hazards.md R221, 10_state.md R15, R24). -/
def Obligations.OnlyResetClears : Prop :=
  ∀ s t : State, step s = .next t →
    (s.sticky = true ∧ t.sticky = false) ∨ (s.ctxv = true ∧ t.ctxv = false) →
    s.inputs.head? = some .rst ∧ s.held = none

/-- RATE and DSEP change only through `rst` or a completed INIT with a legal rate, and then to its fields
(45_context.md R181, 10_state.md R13, R14). -/
def Obligations.ContextFixed : Prop :=
  ∀ s t : State, step s = .next t → (t.rate ≠ s.rate ∨ t.dsep ≠ s.dsep) →
    (s.inputs.head? = some .rst ∧ t.rate = 0 ∧ t.dsep = 0) ∨
      (s.busy = true ∧ t.busy = false ∧ decode s.pcmd = .ok (.init t.rate t.dsep) ∧ 1 ≤ t.rate.toNat ∧
        t.rate.toNat ≤ 199)

/-- FIN is set only by a completed SQUEEZE and cleared only by `rst` or a completed INIT (10_state.md R18). -/
def Obligations.FinalizedOneWay : Prop :=
  ∀ s t : State, step s = .next t →
    (s.fin = false → t.fin = true → s.busy = true ∧ ∃ n, decode s.pcmd = .ok (.squeeze n)) ∧
    (s.fin = true → t.fin = false →
      s.inputs.head? = some .rst ∨ (s.busy = true ∧ ∃ rate dsep, decode s.pcmd = .ok (.init rate dsep)))

/-- DOUT changes only through a completed SQUEEZE that succeeded, or to 0 through a completed INIT that succeeded or
through `rst` (10_state.md R21). -/
def Obligations.DoutWriters : Prop :=
  ∀ s t : State, step s = .next t → t.dout ≠ s.dout →
    (s.busy = true ∧ t.err = 0 ∧ ∃ n, decode s.pcmd = .ok (.squeeze n)) ∨
      (t.dout = 0 ∧ (s.inputs.head? = some .rst ∨
        (s.busy = true ∧ t.err = 0 ∧ ∃ rate dsep, decode s.pcmd = .ok (.init rate dsep))))

/-! ### Reset and bounds (70_reset_and_hazards.md) -/

/-- Every value reset leaves, and the words the host reads then: STATUS is 0, and CONFIG holds 12, 12 and P_RPC, with
RATE, DSEP and the reserved bits 0 (10_state.md R28, R22, R23). -/
def Obligations.ResetValues : Prop :=
  (∀ i < 25, laneAt State.reset.lanes i = 0) ∧ (∀ i < 199, bufAt State.reset.buf i = 0) ∧
    State.reset.rate = 0 ∧ State.reset.dsep = 0 ∧ State.reset.ctxv = false ∧ State.reset.buflen = 0 ∧
    State.reset.fin = false ∧ State.reset.cur = 0 ∧ State.reset.din = 0 ∧ State.reset.dout = 0 ∧
    State.reset.err = 0 ∧ State.reset.ecause = 0 ∧ State.reset.sticky = false ∧ State.reset.busy = false ∧
    State.reset.pcmd = 0 ∧ State.reset.pdin = 0 ∧ State.reset.statusWord = 0 ∧
    State.reset.configWord = (12#64 <<< 16) ||| (12#64 <<< 24) ||| (BitVec.ofNat 64 Config.rpc.toNat <<< 32)

/-- A rising edge with `rst` high, in any phase of a command and with no access outstanding: the engine's state is
the reset state and a pending command is gone. The step is that edge, or first the completion of a command that was
accepted. The host's events, its answers and the model's counters stay
(70_reset_and_hazards.md R221; what stays is the model's choice, log 12). -/
def Obligations.ResetEdge : Prop :=
  ∀ (s : State) (rest : List HostEvent), s.inputs = .rst :: rest → s.held = none →
    hostStep s.nextTurn = .next { State.reset with inputs := rest, answers := s.answers, turn := s.turn + 1,
                                                   permCount := s.permCount } ∧
      (step s = hostStep s.nextTurn ∨ (s.busy = true ∧ step s = complete s.nextTurn))

/-- No command makes more than 8 Permute() calls: INIT none, ABSORB (BUFLEN + N) div RATE; and a command takes at most
1 + 8 * T_P cycles (70_reset_and_hazards.md R225, R226). -/
def Obligations.PermutationBound : Prop :=
  (∀ (i : Instr) (s : State), permutationsOf i s ≤ 8 ∧
    completionCycles i s ≤ 1 + 8 * (12 / Config.rpc.toNat)) ∧
  (∀ (rate dsep : BitVec 8) (s : State), permutationsOf (.init rate dsep) s = 0) ∧
  (∀ (n : BitVec 4) (s : State), n.toNat ≤ 8 → s.ctxv = true → s.Inv → s.fin = false →
    permutationsOf (.absorb n) s = (s.buflen.toNat + n.toNat) / s.rate.toNat)

/-- From a state in INV, BUSY does not stay 1: within one step more than the host has events, a completion or a reset
clears it, or `rst` comes over a held write (70_reset_and_hazards.md R226, 93_implementation_defined.md I13). -/
def Obligations.BusyEnds : Prop :=
  ∀ s : State, s.Inv → s.busy = true → ∃ k ≤ s.inputs.length + 1,
    (∃ t, Host.Core.run Sys2Proof.core k s = .next t ∧ t.busy = false) ∨
      Host.Core.run Sys2Proof.core k s = .fault .accessAcrossReset

/-- A CMD write that is still held where `rst` is the host's next event: with BUSY = 0 it is accepted before the edge;
with BUSY = 1 the completion may come first, and otherwise the run ends in the fault for an access kept outstanding
across reset (the model's choice, log 4; 70_reset_and_hazards.md R221, 20_memory.md R46,
93_implementation_defined.md I12). -/
def Obligations.HeldWriteAtReset : Prop :=
  ∀ (w : Word) (s : State), s.held = some w → s.inputs.head? = some .rst →
    (s.busy = false → step s = .next
      { s with pcmd := w, pdin := s.din, busy := true, held := none, turn := s.turn + 1,
               answers := { offset := 0x00, op := .write w, status := .okay, data := 0 } :: s.answers }) ∧
    (s.busy = true → step s = complete s.nextTurn ∨ step s = .fault .accessAcrossReset)
end

