-- ==== Sys2Proof/Laws/Permutation.lean ====
section
/-! SUPPORT. Laws of the lane accessors and the rotation. -/

namespace Sys2Proof.Machine

theorem rotl64_zero (v : Word) : rotl64 v 0 = v := by simp [rotl64]

/-- Reading a lane after a write: the value written, or the old lane elsewhere. -/
theorem laneAt_setLane {a : Lanes} {i : Nat} (h : i < 25) (v : Word) (j : Nat) :
    laneAt (setLane a i v) j = if j = i then v else laneAt a j := by
  unfold laneAt setLane
  rw [Vector.getElem?_setIfInBounds]
  by_cases hj : j = i
  · subst hj; simp [h]
  · simp [hj, Ne.symm hj]

theorem laneAt_ofFn (f : Fin 25 → Word) {i : Nat} (h : i < 25) : laneAt (Vector.ofFn f) i = f ⟨i, h⟩ := by
  simp [laneAt, h]

/-- Two lane states with the same lanes are equal. -/
theorem lanes_ext {a b : Lanes} (h : ∀ i < 25, laneAt a i = laneAt b i) : a = b := by
  ext i hi : 1
  simpa [laneAt, hi] using h i hi

end Sys2Proof.Machine
end

