-- ==== Sys2Proof/Laws/Codec.lean ====
section
/-! SUPPORT. Laws of the lane/byte codec and of the buffer accessors. -/

namespace Sys2Proof.Machine

/-- The bits of a state byte are bits of its lane (10_state.md R11). -/
theorem getLsbD_stateByte (a : Lanes) (j k : Nat) (hk : k < 8) :
    (stateByte a j).getLsbD k = (laneAt a (j / 8)).getLsbD (8 * (j % 8) + k) := by
  simp [stateByte, hk]

/-- Reading the buffer after a write: the byte written, or the old byte elsewhere. -/
theorem bufAt_setBuf {buf : Buffer} {i : Nat} (h : i < 199) (b : Byte) (j : Nat) :
    bufAt (setBuf buf i b) j = if j = i then b else bufAt buf j := by
  unfold bufAt setBuf
  rw [Vector.getElem?_setIfInBounds]
  by_cases hj : j = i
  · subst hj; simp [h]
  · simp [hj, Ne.symm hj]

theorem xorBlockInto_succ (a : Lanes) (buf : Buffer) (n : Nat) :
    xorBlockInto a buf (n + 1) = xorByteInto (xorBlockInto a buf n) n (bufAt buf n) := rfl

theorem xorBytesFrom_append (a : Lanes) (j : Nat) (l m : List Byte) :
    xorBytesFrom a j (l ++ m) = xorBytesFrom (xorBytesFrom a j l) (j + l.length) m := by
  induction l generalizing a j with
  | nil => simp [xorBytesFrom]
  | cons b bs ih => simp only [List.cons_append, xorBytesFrom, ih, List.length_cons]; congr 1; omega

/-- XorBlock(n) is the XOR of the first n buffer bytes, in order, from state byte 0 on. -/
theorem xorBlockInto_eq (a : Lanes) (buf : Buffer) (n : Nat) :
    xorBlockInto a buf n = xorBytesFrom a 0 ((List.range n).map (bufAt buf)) := by
  induction n with
  | zero => rfl
  | succ n ih => rw [xorBlockInto_succ, ih, List.range_succ, List.map_append, xorBytesFrom_append]; simp [xorBytesFrom]

@[simp] theorem messageBytes_length (v : Word) (n : Nat) : (messageBytes v n).length = n := by simp [messageBytes]

/-- The message bytes of n + m are those of n and then those of m from byte n on. -/
theorem messageBytes_add (v : Word) (n m : Nat) :
    messageBytes v (n + m) = messageBytes v n ++ messageBytes (v >>> (8 * n)) m := by
  simp only [messageBytes, List.range_add, List.map_append, List.map_map]
  congr 1
  apply List.map_congr_left
  intro k _
  apply BitVec.eq_of_getLsbD_eq
  intro i hi
  simp [byteOf, hi, Nat.mul_add, Nat.add_assoc]

/-- Permutations after permutations. -/
theorem permuted_add (i j : Nat) (a : Lanes) : permuted j (permuted i a) = permuted (i + j) a := by
  unfold permuted
  induction j with
  | zero => simp [Nat.repeat]
  | succ j ih => rw [← Nat.add_assoc]; simp only [Nat.repeat, ih]

end Sys2Proof.Machine
end

