-- ==== Sys2Proof/Laws/State.lean ====
section
/-! SUPPORT. What each named update of the state makes of each field: one lemma per field per update. -/

namespace Sys2Proof.Machine

variable (s : State)

@[simp] theorem State.permute_lanes : (State.permute s).lanes = keccakP s.lanes := by simp only [State.permute]
@[simp] theorem State.permute_rate : (State.permute s).rate = s.rate := by simp only [State.permute]
@[simp] theorem State.permute_dsep : (State.permute s).dsep = s.dsep := by simp only [State.permute]
@[simp] theorem State.permute_ctxv : (State.permute s).ctxv = s.ctxv := by simp only [State.permute]
@[simp] theorem State.permute_buf : (State.permute s).buf = s.buf := by simp only [State.permute]
@[simp] theorem State.permute_buflen : (State.permute s).buflen = s.buflen := by simp only [State.permute]
@[simp] theorem State.permute_fin : (State.permute s).fin = s.fin := by simp only [State.permute]
@[simp] theorem State.permute_cur : (State.permute s).cur = s.cur := by simp only [State.permute]
@[simp] theorem State.permute_din : (State.permute s).din = s.din := by simp only [State.permute]
@[simp] theorem State.permute_dout : (State.permute s).dout = s.dout := by simp only [State.permute]
@[simp] theorem State.permute_err : (State.permute s).err = s.err := by simp only [State.permute]
@[simp] theorem State.permute_ecause : (State.permute s).ecause = s.ecause := by simp only [State.permute]
@[simp] theorem State.permute_sticky : (State.permute s).sticky = s.sticky := by simp only [State.permute]
@[simp] theorem State.permute_busy : (State.permute s).busy = s.busy := by simp only [State.permute]
@[simp] theorem State.permute_pcmd : (State.permute s).pcmd = s.pcmd := by simp only [State.permute]
@[simp] theorem State.permute_pdin : (State.permute s).pdin = s.pdin := by simp only [State.permute]
@[simp] theorem State.permute_held : (State.permute s).held = s.held := by simp only [State.permute]
@[simp] theorem State.permute_inputs : (State.permute s).inputs = s.inputs := by simp only [State.permute]
@[simp] theorem State.permute_answers : (State.permute s).answers = s.answers := by simp only [State.permute]
@[simp] theorem State.permute_turn : (State.permute s).turn = s.turn := by simp only [State.permute]
@[simp] theorem State.permute_permCount : (State.permute s).permCount = s.permCount + 1 := by simp only [State.permute]

@[simp] theorem State.xorBlock_lanes (n : Nat) : (State.xorBlock s n).lanes = xorBlockInto s.lanes s.buf n := rfl
@[simp] theorem State.xorBlock_rate (n : Nat) : (State.xorBlock s n).rate = s.rate := rfl
@[simp] theorem State.xorBlock_dsep (n : Nat) : (State.xorBlock s n).dsep = s.dsep := rfl
@[simp] theorem State.xorBlock_ctxv (n : Nat) : (State.xorBlock s n).ctxv = s.ctxv := rfl
@[simp] theorem State.xorBlock_buf (n : Nat) : (State.xorBlock s n).buf = s.buf := rfl
@[simp] theorem State.xorBlock_buflen (n : Nat) : (State.xorBlock s n).buflen = s.buflen := rfl
@[simp] theorem State.xorBlock_fin (n : Nat) : (State.xorBlock s n).fin = s.fin := rfl
@[simp] theorem State.xorBlock_cur (n : Nat) : (State.xorBlock s n).cur = s.cur := rfl
@[simp] theorem State.xorBlock_din (n : Nat) : (State.xorBlock s n).din = s.din := rfl
@[simp] theorem State.xorBlock_dout (n : Nat) : (State.xorBlock s n).dout = s.dout := rfl
@[simp] theorem State.xorBlock_err (n : Nat) : (State.xorBlock s n).err = s.err := rfl
@[simp] theorem State.xorBlock_ecause (n : Nat) : (State.xorBlock s n).ecause = s.ecause := rfl
@[simp] theorem State.xorBlock_sticky (n : Nat) : (State.xorBlock s n).sticky = s.sticky := rfl
@[simp] theorem State.xorBlock_busy (n : Nat) : (State.xorBlock s n).busy = s.busy := rfl
@[simp] theorem State.xorBlock_pcmd (n : Nat) : (State.xorBlock s n).pcmd = s.pcmd := rfl
@[simp] theorem State.xorBlock_pdin (n : Nat) : (State.xorBlock s n).pdin = s.pdin := rfl
@[simp] theorem State.xorBlock_held (n : Nat) : (State.xorBlock s n).held = s.held := rfl
@[simp] theorem State.xorBlock_inputs (n : Nat) : (State.xorBlock s n).inputs = s.inputs := rfl
@[simp] theorem State.xorBlock_answers (n : Nat) : (State.xorBlock s n).answers = s.answers := rfl
@[simp] theorem State.xorBlock_turn (n : Nat) : (State.xorBlock s n).turn = s.turn := rfl
@[simp] theorem State.xorBlock_permCount (n : Nat) : (State.xorBlock s n).permCount = s.permCount := rfl

@[simp] theorem State.xorStateByte_lanes (j : Nat) (b : Byte) : (State.xorStateByte s j b).lanes = xorByteInto s.lanes j b := rfl
@[simp] theorem State.xorStateByte_rate (j : Nat) (b : Byte) : (State.xorStateByte s j b).rate = s.rate := rfl
@[simp] theorem State.xorStateByte_dsep (j : Nat) (b : Byte) : (State.xorStateByte s j b).dsep = s.dsep := rfl
@[simp] theorem State.xorStateByte_ctxv (j : Nat) (b : Byte) : (State.xorStateByte s j b).ctxv = s.ctxv := rfl
@[simp] theorem State.xorStateByte_buf (j : Nat) (b : Byte) : (State.xorStateByte s j b).buf = s.buf := rfl
@[simp] theorem State.xorStateByte_buflen (j : Nat) (b : Byte) : (State.xorStateByte s j b).buflen = s.buflen := rfl
@[simp] theorem State.xorStateByte_fin (j : Nat) (b : Byte) : (State.xorStateByte s j b).fin = s.fin := rfl
@[simp] theorem State.xorStateByte_cur (j : Nat) (b : Byte) : (State.xorStateByte s j b).cur = s.cur := rfl
@[simp] theorem State.xorStateByte_din (j : Nat) (b : Byte) : (State.xorStateByte s j b).din = s.din := rfl
@[simp] theorem State.xorStateByte_dout (j : Nat) (b : Byte) : (State.xorStateByte s j b).dout = s.dout := rfl
@[simp] theorem State.xorStateByte_err (j : Nat) (b : Byte) : (State.xorStateByte s j b).err = s.err := rfl
@[simp] theorem State.xorStateByte_ecause (j : Nat) (b : Byte) : (State.xorStateByte s j b).ecause = s.ecause := rfl
@[simp] theorem State.xorStateByte_sticky (j : Nat) (b : Byte) : (State.xorStateByte s j b).sticky = s.sticky := rfl
@[simp] theorem State.xorStateByte_busy (j : Nat) (b : Byte) : (State.xorStateByte s j b).busy = s.busy := rfl
@[simp] theorem State.xorStateByte_pcmd (j : Nat) (b : Byte) : (State.xorStateByte s j b).pcmd = s.pcmd := rfl
@[simp] theorem State.xorStateByte_pdin (j : Nat) (b : Byte) : (State.xorStateByte s j b).pdin = s.pdin := rfl
@[simp] theorem State.xorStateByte_held (j : Nat) (b : Byte) : (State.xorStateByte s j b).held = s.held := rfl
@[simp] theorem State.xorStateByte_inputs (j : Nat) (b : Byte) : (State.xorStateByte s j b).inputs = s.inputs := rfl
@[simp] theorem State.xorStateByte_answers (j : Nat) (b : Byte) : (State.xorStateByte s j b).answers = s.answers := rfl
@[simp] theorem State.xorStateByte_turn (j : Nat) (b : Byte) : (State.xorStateByte s j b).turn = s.turn := rfl
@[simp] theorem State.xorStateByte_permCount (j : Nat) (b : Byte) : (State.xorStateByte s j b).permCount = s.permCount := rfl

@[simp] theorem State.pushByte_lanes (b : Byte) : (State.pushByte s b).lanes = s.lanes := rfl
@[simp] theorem State.pushByte_rate (b : Byte) : (State.pushByte s b).rate = s.rate := rfl
@[simp] theorem State.pushByte_dsep (b : Byte) : (State.pushByte s b).dsep = s.dsep := rfl
@[simp] theorem State.pushByte_ctxv (b : Byte) : (State.pushByte s b).ctxv = s.ctxv := rfl
@[simp] theorem State.pushByte_buf (b : Byte) : (State.pushByte s b).buf = setBuf s.buf s.buflen.toNat b := rfl
@[simp] theorem State.pushByte_buflen (b : Byte) : (State.pushByte s b).buflen = s.buflen + 1 := rfl
@[simp] theorem State.pushByte_fin (b : Byte) : (State.pushByte s b).fin = s.fin := rfl
@[simp] theorem State.pushByte_cur (b : Byte) : (State.pushByte s b).cur = s.cur := rfl
@[simp] theorem State.pushByte_din (b : Byte) : (State.pushByte s b).din = s.din := rfl
@[simp] theorem State.pushByte_dout (b : Byte) : (State.pushByte s b).dout = s.dout := rfl
@[simp] theorem State.pushByte_err (b : Byte) : (State.pushByte s b).err = s.err := rfl
@[simp] theorem State.pushByte_ecause (b : Byte) : (State.pushByte s b).ecause = s.ecause := rfl
@[simp] theorem State.pushByte_sticky (b : Byte) : (State.pushByte s b).sticky = s.sticky := rfl
@[simp] theorem State.pushByte_busy (b : Byte) : (State.pushByte s b).busy = s.busy := rfl
@[simp] theorem State.pushByte_pcmd (b : Byte) : (State.pushByte s b).pcmd = s.pcmd := rfl
@[simp] theorem State.pushByte_pdin (b : Byte) : (State.pushByte s b).pdin = s.pdin := rfl
@[simp] theorem State.pushByte_held (b : Byte) : (State.pushByte s b).held = s.held := rfl
@[simp] theorem State.pushByte_inputs (b : Byte) : (State.pushByte s b).inputs = s.inputs := rfl
@[simp] theorem State.pushByte_answers (b : Byte) : (State.pushByte s b).answers = s.answers := rfl
@[simp] theorem State.pushByte_turn (b : Byte) : (State.pushByte s b).turn = s.turn := rfl
@[simp] theorem State.pushByte_permCount (b : Byte) : (State.pushByte s b).permCount = s.permCount := rfl

@[simp] theorem State.raise_lanes (c : Cause) : (State.raise c s).lanes = s.lanes := rfl
@[simp] theorem State.raise_rate (c : Cause) : (State.raise c s).rate = s.rate := rfl
@[simp] theorem State.raise_dsep (c : Cause) : (State.raise c s).dsep = s.dsep := rfl
@[simp] theorem State.raise_ctxv (c : Cause) : (State.raise c s).ctxv = s.ctxv := rfl
@[simp] theorem State.raise_buf (c : Cause) : (State.raise c s).buf = s.buf := rfl
@[simp] theorem State.raise_buflen (c : Cause) : (State.raise c s).buflen = s.buflen := rfl
@[simp] theorem State.raise_fin (c : Cause) : (State.raise c s).fin = s.fin := rfl
@[simp] theorem State.raise_cur (c : Cause) : (State.raise c s).cur = s.cur := rfl
@[simp] theorem State.raise_din (c : Cause) : (State.raise c s).din = s.din := rfl
@[simp] theorem State.raise_dout (c : Cause) : (State.raise c s).dout = s.dout := rfl
@[simp] theorem State.raise_err (c : Cause) : (State.raise c s).err = classCode (causeClass c) := rfl
@[simp] theorem State.raise_ecause (c : Cause) : (State.raise c s).ecause = causeCode c := rfl
@[simp] theorem State.raise_sticky (c : Cause) : (State.raise c s).sticky = true := rfl
@[simp] theorem State.raise_busy (c : Cause) : (State.raise c s).busy = s.busy := rfl
@[simp] theorem State.raise_pcmd (c : Cause) : (State.raise c s).pcmd = s.pcmd := rfl
@[simp] theorem State.raise_pdin (c : Cause) : (State.raise c s).pdin = s.pdin := rfl
@[simp] theorem State.raise_held (c : Cause) : (State.raise c s).held = s.held := rfl
@[simp] theorem State.raise_inputs (c : Cause) : (State.raise c s).inputs = s.inputs := rfl
@[simp] theorem State.raise_answers (c : Cause) : (State.raise c s).answers = s.answers := rfl
@[simp] theorem State.raise_turn (c : Cause) : (State.raise c s).turn = s.turn := rfl
@[simp] theorem State.raise_permCount (c : Cause) : (State.raise c s).permCount = s.permCount := rfl

@[simp] theorem State.succeed_lanes : (State.succeed s).lanes = s.lanes := rfl
@[simp] theorem State.succeed_rate : (State.succeed s).rate = s.rate := rfl
@[simp] theorem State.succeed_dsep : (State.succeed s).dsep = s.dsep := rfl
@[simp] theorem State.succeed_ctxv : (State.succeed s).ctxv = s.ctxv := rfl
@[simp] theorem State.succeed_buf : (State.succeed s).buf = s.buf := rfl
@[simp] theorem State.succeed_buflen : (State.succeed s).buflen = s.buflen := rfl
@[simp] theorem State.succeed_fin : (State.succeed s).fin = s.fin := rfl
@[simp] theorem State.succeed_cur : (State.succeed s).cur = s.cur := rfl
@[simp] theorem State.succeed_din : (State.succeed s).din = s.din := rfl
@[simp] theorem State.succeed_dout : (State.succeed s).dout = s.dout := rfl
@[simp] theorem State.succeed_err : (State.succeed s).err = 0 := rfl
@[simp] theorem State.succeed_ecause : (State.succeed s).ecause = 0 := rfl
@[simp] theorem State.succeed_sticky : (State.succeed s).sticky = s.sticky := rfl
@[simp] theorem State.succeed_busy : (State.succeed s).busy = s.busy := rfl
@[simp] theorem State.succeed_pcmd : (State.succeed s).pcmd = s.pcmd := rfl
@[simp] theorem State.succeed_pdin : (State.succeed s).pdin = s.pdin := rfl
@[simp] theorem State.succeed_held : (State.succeed s).held = s.held := rfl
@[simp] theorem State.succeed_inputs : (State.succeed s).inputs = s.inputs := rfl
@[simp] theorem State.succeed_answers : (State.succeed s).answers = s.answers := rfl
@[simp] theorem State.succeed_turn : (State.succeed s).turn = s.turn := rfl
@[simp] theorem State.succeed_permCount : (State.succeed s).permCount = s.permCount := rfl

@[simp] theorem State.accept_lanes (w : Word) : (State.accept w s).lanes = s.lanes := rfl
@[simp] theorem State.accept_rate (w : Word) : (State.accept w s).rate = s.rate := rfl
@[simp] theorem State.accept_dsep (w : Word) : (State.accept w s).dsep = s.dsep := rfl
@[simp] theorem State.accept_ctxv (w : Word) : (State.accept w s).ctxv = s.ctxv := rfl
@[simp] theorem State.accept_buf (w : Word) : (State.accept w s).buf = s.buf := rfl
@[simp] theorem State.accept_buflen (w : Word) : (State.accept w s).buflen = s.buflen := rfl
@[simp] theorem State.accept_fin (w : Word) : (State.accept w s).fin = s.fin := rfl
@[simp] theorem State.accept_cur (w : Word) : (State.accept w s).cur = s.cur := rfl
@[simp] theorem State.accept_din (w : Word) : (State.accept w s).din = s.din := rfl
@[simp] theorem State.accept_dout (w : Word) : (State.accept w s).dout = s.dout := rfl
@[simp] theorem State.accept_err (w : Word) : (State.accept w s).err = s.err := rfl
@[simp] theorem State.accept_ecause (w : Word) : (State.accept w s).ecause = s.ecause := rfl
@[simp] theorem State.accept_sticky (w : Word) : (State.accept w s).sticky = s.sticky := rfl
@[simp] theorem State.accept_busy (w : Word) : (State.accept w s).busy = true := rfl
@[simp] theorem State.accept_pcmd (w : Word) : (State.accept w s).pcmd = w := rfl
@[simp] theorem State.accept_pdin (w : Word) : (State.accept w s).pdin = s.din := rfl
@[simp] theorem State.accept_held (w : Word) : (State.accept w s).held = none := rfl
@[simp] theorem State.accept_inputs (w : Word) : (State.accept w s).inputs = s.inputs := rfl
@[simp] theorem State.accept_answers (w : Word) : (State.accept w s).answers = s.answers := rfl
@[simp] theorem State.accept_turn (w : Word) : (State.accept w s).turn = s.turn := rfl
@[simp] theorem State.accept_permCount (w : Word) : (State.accept w s).permCount = s.permCount := rfl

@[simp] theorem State.release_lanes : (State.release s).lanes = s.lanes := rfl
@[simp] theorem State.release_rate : (State.release s).rate = s.rate := rfl
@[simp] theorem State.release_dsep : (State.release s).dsep = s.dsep := rfl
@[simp] theorem State.release_ctxv : (State.release s).ctxv = s.ctxv := rfl
@[simp] theorem State.release_buf : (State.release s).buf = s.buf := rfl
@[simp] theorem State.release_buflen : (State.release s).buflen = s.buflen := rfl
@[simp] theorem State.release_fin : (State.release s).fin = s.fin := rfl
@[simp] theorem State.release_cur : (State.release s).cur = s.cur := rfl
@[simp] theorem State.release_din : (State.release s).din = s.din := rfl
@[simp] theorem State.release_dout : (State.release s).dout = s.dout := rfl
@[simp] theorem State.release_err : (State.release s).err = s.err := rfl
@[simp] theorem State.release_ecause : (State.release s).ecause = s.ecause := rfl
@[simp] theorem State.release_sticky : (State.release s).sticky = s.sticky := rfl
@[simp] theorem State.release_busy : (State.release s).busy = false := rfl
@[simp] theorem State.release_pcmd : (State.release s).pcmd = s.pcmd := rfl
@[simp] theorem State.release_pdin : (State.release s).pdin = s.pdin := rfl
@[simp] theorem State.release_held : (State.release s).held = s.held := rfl
@[simp] theorem State.release_inputs : (State.release s).inputs = s.inputs := rfl
@[simp] theorem State.release_answers : (State.release s).answers = s.answers := rfl
@[simp] theorem State.release_turn : (State.release s).turn = s.turn := rfl
@[simp] theorem State.release_permCount : (State.release s).permCount = s.permCount := rfl

@[simp] theorem State.respond_lanes (r : Response) : (State.respond r s).lanes = s.lanes := rfl
@[simp] theorem State.respond_rate (r : Response) : (State.respond r s).rate = s.rate := rfl
@[simp] theorem State.respond_dsep (r : Response) : (State.respond r s).dsep = s.dsep := rfl
@[simp] theorem State.respond_ctxv (r : Response) : (State.respond r s).ctxv = s.ctxv := rfl
@[simp] theorem State.respond_buf (r : Response) : (State.respond r s).buf = s.buf := rfl
@[simp] theorem State.respond_buflen (r : Response) : (State.respond r s).buflen = s.buflen := rfl
@[simp] theorem State.respond_fin (r : Response) : (State.respond r s).fin = s.fin := rfl
@[simp] theorem State.respond_cur (r : Response) : (State.respond r s).cur = s.cur := rfl
@[simp] theorem State.respond_din (r : Response) : (State.respond r s).din = s.din := rfl
@[simp] theorem State.respond_dout (r : Response) : (State.respond r s).dout = s.dout := rfl
@[simp] theorem State.respond_err (r : Response) : (State.respond r s).err = s.err := rfl
@[simp] theorem State.respond_ecause (r : Response) : (State.respond r s).ecause = s.ecause := rfl
@[simp] theorem State.respond_sticky (r : Response) : (State.respond r s).sticky = s.sticky := rfl
@[simp] theorem State.respond_busy (r : Response) : (State.respond r s).busy = s.busy := rfl
@[simp] theorem State.respond_pcmd (r : Response) : (State.respond r s).pcmd = s.pcmd := rfl
@[simp] theorem State.respond_pdin (r : Response) : (State.respond r s).pdin = s.pdin := rfl
@[simp] theorem State.respond_held (r : Response) : (State.respond r s).held = s.held := rfl
@[simp] theorem State.respond_inputs (r : Response) : (State.respond r s).inputs = s.inputs := rfl
@[simp] theorem State.respond_answers (r : Response) : (State.respond r s).answers = r :: s.answers := rfl
@[simp] theorem State.respond_turn (r : Response) : (State.respond r s).turn = s.turn := rfl
@[simp] theorem State.respond_permCount (r : Response) : (State.respond r s).permCount = s.permCount := rfl

@[simp] theorem State.nextTurn_lanes : (State.nextTurn s).lanes = s.lanes := rfl
@[simp] theorem State.nextTurn_rate : (State.nextTurn s).rate = s.rate := rfl
@[simp] theorem State.nextTurn_dsep : (State.nextTurn s).dsep = s.dsep := rfl
@[simp] theorem State.nextTurn_ctxv : (State.nextTurn s).ctxv = s.ctxv := rfl
@[simp] theorem State.nextTurn_buf : (State.nextTurn s).buf = s.buf := rfl
@[simp] theorem State.nextTurn_buflen : (State.nextTurn s).buflen = s.buflen := rfl
@[simp] theorem State.nextTurn_fin : (State.nextTurn s).fin = s.fin := rfl
@[simp] theorem State.nextTurn_cur : (State.nextTurn s).cur = s.cur := rfl
@[simp] theorem State.nextTurn_din : (State.nextTurn s).din = s.din := rfl
@[simp] theorem State.nextTurn_dout : (State.nextTurn s).dout = s.dout := rfl
@[simp] theorem State.nextTurn_err : (State.nextTurn s).err = s.err := rfl
@[simp] theorem State.nextTurn_ecause : (State.nextTurn s).ecause = s.ecause := rfl
@[simp] theorem State.nextTurn_sticky : (State.nextTurn s).sticky = s.sticky := rfl
@[simp] theorem State.nextTurn_busy : (State.nextTurn s).busy = s.busy := rfl
@[simp] theorem State.nextTurn_pcmd : (State.nextTurn s).pcmd = s.pcmd := rfl
@[simp] theorem State.nextTurn_pdin : (State.nextTurn s).pdin = s.pdin := rfl
@[simp] theorem State.nextTurn_held : (State.nextTurn s).held = s.held := rfl
@[simp] theorem State.nextTurn_inputs : (State.nextTurn s).inputs = s.inputs := rfl
@[simp] theorem State.nextTurn_answers : (State.nextTurn s).answers = s.answers := rfl
@[simp] theorem State.nextTurn_turn : (State.nextTurn s).turn = s.turn + 1 := rfl
@[simp] theorem State.nextTurn_permCount : (State.nextTurn s).permCount = s.permCount := rfl

@[simp] theorem State.dropInput_lanes : (State.dropInput s).lanes = s.lanes := rfl
@[simp] theorem State.dropInput_rate : (State.dropInput s).rate = s.rate := rfl
@[simp] theorem State.dropInput_dsep : (State.dropInput s).dsep = s.dsep := rfl
@[simp] theorem State.dropInput_ctxv : (State.dropInput s).ctxv = s.ctxv := rfl
@[simp] theorem State.dropInput_buf : (State.dropInput s).buf = s.buf := rfl
@[simp] theorem State.dropInput_buflen : (State.dropInput s).buflen = s.buflen := rfl
@[simp] theorem State.dropInput_fin : (State.dropInput s).fin = s.fin := rfl
@[simp] theorem State.dropInput_cur : (State.dropInput s).cur = s.cur := rfl
@[simp] theorem State.dropInput_din : (State.dropInput s).din = s.din := rfl
@[simp] theorem State.dropInput_dout : (State.dropInput s).dout = s.dout := rfl
@[simp] theorem State.dropInput_err : (State.dropInput s).err = s.err := rfl
@[simp] theorem State.dropInput_ecause : (State.dropInput s).ecause = s.ecause := rfl
@[simp] theorem State.dropInput_sticky : (State.dropInput s).sticky = s.sticky := rfl
@[simp] theorem State.dropInput_busy : (State.dropInput s).busy = s.busy := rfl
@[simp] theorem State.dropInput_pcmd : (State.dropInput s).pcmd = s.pcmd := rfl
@[simp] theorem State.dropInput_pdin : (State.dropInput s).pdin = s.pdin := rfl
@[simp] theorem State.dropInput_held : (State.dropInput s).held = s.held := rfl
@[simp] theorem State.dropInput_inputs : (State.dropInput s).inputs = s.inputs.tail := rfl
@[simp] theorem State.dropInput_answers : (State.dropInput s).answers = s.answers := rfl
@[simp] theorem State.dropInput_turn : (State.dropInput s).turn = s.turn := rfl
@[simp] theorem State.dropInput_permCount : (State.dropInput s).permCount = s.permCount := rfl

@[simp] theorem State.freshContext_lanes (rate dsep : BitVec 8) : (State.freshContext rate dsep s).lanes = Vector.replicate 25 0 := rfl
@[simp] theorem State.freshContext_rate (rate dsep : BitVec 8) : (State.freshContext rate dsep s).rate = rate := rfl
@[simp] theorem State.freshContext_dsep (rate dsep : BitVec 8) : (State.freshContext rate dsep s).dsep = dsep := rfl
@[simp] theorem State.freshContext_ctxv (rate dsep : BitVec 8) : (State.freshContext rate dsep s).ctxv = true := rfl
@[simp] theorem State.freshContext_buf (rate dsep : BitVec 8) : (State.freshContext rate dsep s).buf = Vector.replicate 199 0 := rfl
@[simp] theorem State.freshContext_buflen (rate dsep : BitVec 8) : (State.freshContext rate dsep s).buflen = 0 := rfl
@[simp] theorem State.freshContext_fin (rate dsep : BitVec 8) : (State.freshContext rate dsep s).fin = false := rfl
@[simp] theorem State.freshContext_cur (rate dsep : BitVec 8) : (State.freshContext rate dsep s).cur = 0 := rfl
@[simp] theorem State.freshContext_din (rate dsep : BitVec 8) : (State.freshContext rate dsep s).din = s.din := rfl
@[simp] theorem State.freshContext_dout (rate dsep : BitVec 8) : (State.freshContext rate dsep s).dout = 0 := rfl
@[simp] theorem State.freshContext_err (rate dsep : BitVec 8) : (State.freshContext rate dsep s).err = s.err := rfl
@[simp] theorem State.freshContext_ecause (rate dsep : BitVec 8) : (State.freshContext rate dsep s).ecause = s.ecause := rfl
@[simp] theorem State.freshContext_sticky (rate dsep : BitVec 8) : (State.freshContext rate dsep s).sticky = s.sticky := rfl
@[simp] theorem State.freshContext_busy (rate dsep : BitVec 8) : (State.freshContext rate dsep s).busy = s.busy := rfl
@[simp] theorem State.freshContext_pcmd (rate dsep : BitVec 8) : (State.freshContext rate dsep s).pcmd = s.pcmd := rfl
@[simp] theorem State.freshContext_pdin (rate dsep : BitVec 8) : (State.freshContext rate dsep s).pdin = s.pdin := rfl
@[simp] theorem State.freshContext_held (rate dsep : BitVec 8) : (State.freshContext rate dsep s).held = s.held := rfl
@[simp] theorem State.freshContext_inputs (rate dsep : BitVec 8) : (State.freshContext rate dsep s).inputs = s.inputs := rfl
@[simp] theorem State.freshContext_answers (rate dsep : BitVec 8) : (State.freshContext rate dsep s).answers = s.answers := rfl
@[simp] theorem State.freshContext_turn (rate dsep : BitVec 8) : (State.freshContext rate dsep s).turn = s.turn := rfl
@[simp] theorem State.freshContext_permCount (rate dsep : BitVec 8) : (State.freshContext rate dsep s).permCount = s.permCount := rfl

end Sys2Proof.Machine
end

