-- ==== Sys2Proof/Laws/Absorb.lean ====
section
/-! SUPPORT. Laws of ABSORB's byte rules: what AbsorbByte() does in each of its two cases, and what it leaves. -/

namespace Sys2Proof.Machine

seal keccakP

/-- What INV says of an absorbing context (10_state.md R27). -/
theorem State.Inv.absorbing {s : State} (h : s.Inv) (hc : s.ctxv = true) (hf : s.fin = false) :
    RateLegal s.rate ∧ s.buflen.toNat < s.rate.toNat ∧ s.cur = 0 := by
  rcases h with h | ⟨_, hr, h | h⟩
  · simp [hc] at h
  · exact ⟨hr, h.2⟩
  · simp [hf] at h

/-- What INV says of a squeezing context (10_state.md R27). -/
theorem State.Inv.squeezing {s : State} (h : s.Inv) (hc : s.ctxv = true) (hf : s.fin = true) :
    RateLegal s.rate ∧ s.buflen = 0 ∧ s.cur.toNat ≤ s.rate.toNat := by
  rcases h with h | ⟨_, hr, h | h⟩
  · simp [hc] at h
  · simp [hf] at h
  · exact ⟨hr, h.2⟩

/-- BUFLEN counts a pushed byte without wrapping. -/
theorem pushByte_buflen_toNat {s : State} (h : RateLegal s.rate ∧ s.buflen.toNat < s.rate.toNat) (b : Byte) :
    (s.pushByte b).buflen.toNat = s.buflen.toNat + 1 := by
  have := s.rate.isLt
  simp [BitVec.toNat_add]; omega

/-- A pushed byte is the last pending byte. -/
theorem pendingBytes_pushByte {s : State} (h : RateLegal s.rate ∧ s.buflen.toNat < s.rate.toNat) (b : Byte) :
    pendingBytes (s.pushByte b) = pendingBytes s ++ [b] := by
  have h199 : s.buflen.toNat < 199 := by rcases h with ⟨⟨_, _⟩, _⟩; omega
  unfold pendingBytes
  rw [pushByte_buflen_toNat h, List.range_succ, List.map_append]
  congr 1
  · apply List.map_congr_left
    intro i hi
    have : i ≠ s.buflen.toNat := by simp at hi; omega
    simp [bufAt_setBuf h199, this]
  · simp [bufAt_setBuf h199]

/-- AbsorbByte() of the last byte of a block (43_absorb.md R141). -/
theorem absorbByte_full {s : State} (h : RateLegal s.rate ∧ s.buflen.toNat < s.rate.toNat) (b : Byte)
    (hf : s.buflen.toNat + 1 = s.rate.toNat) :
    absorbByte s b =
      { s with lanes := keccakP (xorBytesFrom s.lanes 0 (pendingBytes s ++ [b])), buf := setBuf s.buf s.buflen.toNat b,
               buflen := 0, permCount := s.permCount + 1 } := by
  have e : (s.pushByte b).buflen = s.rate := by
    apply BitVec.eq_of_toNat_eq; rw [pushByte_buflen_toNat h, hf]
  have e2 : xorBlockInto s.lanes (s.pushByte b).buf s.rate.toNat = xorBytesFrom s.lanes 0 (pendingBytes s ++ [b]) := by
    rw [xorBlockInto_eq, ← pendingBytes_pushByte h, pendingBytes, pushByte_buflen_toNat h, hf]
  rw [absorbByte, if_pos e, ← e2]
  simp only [State.permute, State.xorBlock, State.pushByte]

/-- AbsorbByte() of any other byte of a block (43_absorb.md R141). -/
theorem absorbByte_part {s : State} (h : RateLegal s.rate ∧ s.buflen.toNat < s.rate.toNat) (b : Byte)
    (hf : s.buflen.toNat + 1 ≠ s.rate.toNat) : absorbByte s b = s.pushByte b := by
  have e : (s.pushByte b).buflen ≠ s.rate := by
    intro e; apply hf; rw [← e, pushByte_buflen_toNat h]
  rw [absorbByte, if_neg e]

/-- AbsorbByte() changes S, BUF, BUFLEN and the count of permutations only. -/
theorem absorbByte_frame (s : State) (b : Byte) : absorbByte s b =
    { s with lanes := (absorbByte s b).lanes, buf := (absorbByte s b).buf, buflen := (absorbByte s b).buflen,
             permCount := (absorbByte s b).permCount } := by
  unfold absorbByte
  split <;> simp only [State.permute, State.xorBlock, State.pushByte]

theorem absorbBytes_cons (s : State) (b : Byte) (bs : List Byte) :
    absorbBytes s (b :: bs) = absorbBytes (absorbByte s b) bs := rfl

theorem absorbBytes_append (s : State) (l m : List Byte) : absorbBytes s (l ++ m) = absorbBytes (absorbBytes s l) m := by
  simp [absorbBytes]

/-- Absorbing bytes changes S, BUF, BUFLEN and the count of permutations only. -/
theorem absorbBytes_frame (s : State) (m : List Byte) : absorbBytes s m =
    { s with lanes := (absorbBytes s m).lanes, buf := (absorbBytes s m).buf, buflen := (absorbBytes s m).buflen,
             permCount := (absorbBytes s m).permCount } := by
  induction m generalizing s with
  | nil => rfl
  | cons b bs ih =>
    rw [absorbBytes_cons, ih, absorbByte_frame]

theorem absorbByte_rate (s : State) (b : Byte) : (absorbByte s b).rate = s.rate := by rw [absorbByte_frame]

/-- BUFLEN after one byte. -/
theorem absorbByte_buflen {s : State} (h : RateLegal s.rate ∧ s.buflen.toNat < s.rate.toNat) (b : Byte) :
    (absorbByte s b).buflen.toNat = (s.buflen.toNat + 1) % s.rate.toNat := by
  by_cases hf : s.buflen.toNat + 1 = s.rate.toNat
  · rw [absorbByte_full h b hf]; simp [hf]
  · rw [absorbByte_part h b hf, pushByte_buflen_toNat h, Nat.mod_eq_of_lt]; omega

/-- One permutation for the byte that completes a block. -/
theorem absorbByte_permCount {s : State} (h : RateLegal s.rate ∧ s.buflen.toNat < s.rate.toNat) (b : Byte) :
    (absorbByte s b).permCount = s.permCount + (s.buflen.toNat + 1) / s.rate.toNat := by
  by_cases hf : s.buflen.toNat + 1 = s.rate.toNat
  · rw [absorbByte_full h b hf]; simp [hf, Nat.div_self h.1.1]
  · rw [absorbByte_part h b hf, Nat.div_eq_of_lt (by omega)]; rfl

/-- The context stays absorbing after a byte. -/
theorem absorbByte_absorbing {s : State} (h : RateLegal s.rate ∧ s.buflen.toNat < s.rate.toNat) (b : Byte) :
    RateLegal (absorbByte s b).rate ∧ (absorbByte s b).buflen.toNat < (absorbByte s b).rate.toNat := by
  rw [absorbByte_rate, absorbByte_buflen h]
  exact ⟨h.1, Nat.mod_lt _ h.1.1⟩

@[simp] theorem absorbBytes_rate (s : State) (m : List Byte) : (absorbBytes s m).rate = s.rate := by rw [absorbBytes_frame]
@[simp] theorem absorbBytes_dsep (s : State) (m : List Byte) : (absorbBytes s m).dsep = s.dsep := by rw [absorbBytes_frame]
@[simp] theorem absorbBytes_ctxv (s : State) (m : List Byte) : (absorbBytes s m).ctxv = s.ctxv := by rw [absorbBytes_frame]
@[simp] theorem absorbBytes_fin (s : State) (m : List Byte) : (absorbBytes s m).fin = s.fin := by rw [absorbBytes_frame]
@[simp] theorem absorbBytes_cur (s : State) (m : List Byte) : (absorbBytes s m).cur = s.cur := by rw [absorbBytes_frame]
@[simp] theorem absorbBytes_din (s : State) (m : List Byte) : (absorbBytes s m).din = s.din := by rw [absorbBytes_frame]
@[simp] theorem absorbBytes_dout (s : State) (m : List Byte) : (absorbBytes s m).dout = s.dout := by rw [absorbBytes_frame]
@[simp] theorem absorbBytes_err (s : State) (m : List Byte) : (absorbBytes s m).err = s.err := by rw [absorbBytes_frame]
@[simp] theorem absorbBytes_ecause (s : State) (m : List Byte) : (absorbBytes s m).ecause = s.ecause := by rw [absorbBytes_frame]
@[simp] theorem absorbBytes_sticky (s : State) (m : List Byte) : (absorbBytes s m).sticky = s.sticky := by rw [absorbBytes_frame]
@[simp] theorem absorbBytes_busy (s : State) (m : List Byte) : (absorbBytes s m).busy = s.busy := by rw [absorbBytes_frame]
@[simp] theorem absorbBytes_pcmd (s : State) (m : List Byte) : (absorbBytes s m).pcmd = s.pcmd := by rw [absorbBytes_frame]
@[simp] theorem absorbBytes_pdin (s : State) (m : List Byte) : (absorbBytes s m).pdin = s.pdin := by rw [absorbBytes_frame]
@[simp] theorem absorbBytes_held (s : State) (m : List Byte) : (absorbBytes s m).held = s.held := by rw [absorbBytes_frame]
@[simp] theorem absorbBytes_inputs (s : State) (m : List Byte) : (absorbBytes s m).inputs = s.inputs := by rw [absorbBytes_frame]
@[simp] theorem absorbBytes_answers (s : State) (m : List Byte) : (absorbBytes s m).answers = s.answers := by rw [absorbBytes_frame]
@[simp] theorem absorbBytes_turn (s : State) (m : List Byte) : (absorbBytes s m).turn = s.turn := by rw [absorbBytes_frame]

end Sys2Proof.Machine
end

