-- ==== Sys2Proof/Laws/Squeeze.lean ====
section
/-! SUPPORT. Laws of SQUEEZE's byte rules: what the refill and SqueezeByte() do, and what they leave. -/

namespace Sys2Proof.Machine

seal keccakP

/-- The refill changes S, CUR and the count of permutations only. -/
theorem refill_frame (s : State) : refill s = { s with lanes := (refill s).lanes, cur := (refill s).cur, permCount := (refill s).permCount } := by
  unfold refill; split <;> simp only [State.permute]

/-- SqueezeByte() changes S, CUR and the count of permutations only. -/
theorem squeezeByte_frame (s : State) : (squeezeByte s).2 = { s with lanes := (squeezeByte s).2.lanes, cur := (squeezeByte s).2.cur, permCount := (squeezeByte s).2.permCount } := by
  simp only [squeezeByte]
  conv_lhs => rw [refill_frame]

/-- Output bytes change S, CUR and the count of permutations only. -/
theorem squeezeBytes_frame (n : Nat) (s : State) : (squeezeBytes n s).2 = { s with lanes := (squeezeBytes n s).2.lanes, cur := (squeezeBytes n s).2.cur, permCount := (squeezeBytes n s).2.permCount } := by
  induction n generalizing s with
  | zero => rfl
  | succ n ih => simp only [squeezeBytes]; rw [ih, squeezeByte_frame]

theorem squeezeByte_rate (s : State) : (squeezeByte s).2.rate = s.rate := by rw [squeezeByte_frame]

/-- SqueezeByte(): the stream byte at CUR, one permutation when CUR = RATE, and CUR past the byte (44_squeeze.md R163). -/
theorem squeezeByte_eq {s : State} (h : RateLegal s.rate ∧ s.cur.toNat ≤ s.rate.toNat) :
    (squeezeByte s).1 = streamByte s.lanes s.rate.toNat s.cur.toNat ∧
    (squeezeByte s).2.lanes = permuted (s.cur.toNat / s.rate.toNat) s.lanes ∧
    (squeezeByte s).2.cur.toNat = s.cur.toNat % s.rate.toNat + 1 ∧
    (squeezeByte s).2.permCount = s.permCount + s.cur.toNat / s.rate.toNat := by
  have h1 := h.1.1
  have h199 := h.1.2
  by_cases hc : s.cur = s.rate
  · have e : refill s = { s.permute with cur := 0 } := if_pos hc
    simp only [squeezeByte, e, streamByte, hc, Nat.div_self h1, Nat.mod_self, permuted]
    refine ⟨?_, ?_, ?_, ?_⟩ <;> simp [Nat.repeat, State.permute_lanes, State.permute_permCount]
  · have e : refill s = s := if_neg hc
    have hlt : s.cur.toNat < s.rate.toNat := by
      rcases Nat.lt_or_ge s.cur.toNat s.rate.toNat with h' | h'
      · exact h'
      · exact absurd (BitVec.eq_of_toNat_eq (Nat.le_antisymm h.2 h')) hc
    simp only [squeezeByte, e, streamByte, Nat.div_eq_of_lt hlt, Nat.mod_eq_of_lt hlt, permuted]
    refine ⟨?_, ?_, ?_, ?_⟩ <;> simp [Nat.repeat, BitVec.toNat_add]; omega

/-- CUR stays at most RATE. -/
theorem squeezeByte_ok {s : State} (h : RateLegal s.rate ∧ s.cur.toNat ≤ s.rate.toNat) :
    RateLegal (squeezeByte s).2.rate ∧ (squeezeByte s).2.cur.toNat ≤ (squeezeByte s).2.rate.toNat := by
  rw [squeezeByte_rate, (squeezeByte_eq h).2.2.1]
  exact ⟨h.1, Nat.mod_lt _ h.1.1⟩

/-- m output bytes after n output bytes are n + m output bytes, and leave the same state. -/
theorem squeezeBytes_add (n m : Nat) (s : State) :
    squeezeBytes (n + m) s =
      ((squeezeBytes n s).1 ++ (squeezeBytes m (squeezeBytes n s).2).1, (squeezeBytes m (squeezeBytes n s).2).2) := by
  induction n generalizing s with
  | zero => simp [squeezeBytes]
  | succ n ih => rw [Nat.succ_add]; simp [squeezeBytes, ih]

theorem squeezeBytes_length (n : Nat) (s : State) : (squeezeBytes n s).1.length = n := by
  induction n generalizing s with
  | zero => rfl
  | succ n ih => simp [squeezeBytes, ih]

@[simp] theorem squeezeBytes_rate (n : Nat) (s : State) : (squeezeBytes n s).2.rate = s.rate := by rw [squeezeBytes_frame]
@[simp] theorem squeezeBytes_dsep (n : Nat) (s : State) : (squeezeBytes n s).2.dsep = s.dsep := by rw [squeezeBytes_frame]
@[simp] theorem squeezeBytes_ctxv (n : Nat) (s : State) : (squeezeBytes n s).2.ctxv = s.ctxv := by rw [squeezeBytes_frame]
@[simp] theorem squeezeBytes_buf (n : Nat) (s : State) : (squeezeBytes n s).2.buf = s.buf := by rw [squeezeBytes_frame]
@[simp] theorem squeezeBytes_buflen (n : Nat) (s : State) : (squeezeBytes n s).2.buflen = s.buflen := by rw [squeezeBytes_frame]
@[simp] theorem squeezeBytes_fin (n : Nat) (s : State) : (squeezeBytes n s).2.fin = s.fin := by rw [squeezeBytes_frame]
@[simp] theorem squeezeBytes_din (n : Nat) (s : State) : (squeezeBytes n s).2.din = s.din := by rw [squeezeBytes_frame]
@[simp] theorem squeezeBytes_dout (n : Nat) (s : State) : (squeezeBytes n s).2.dout = s.dout := by rw [squeezeBytes_frame]
@[simp] theorem squeezeBytes_err (n : Nat) (s : State) : (squeezeBytes n s).2.err = s.err := by rw [squeezeBytes_frame]
@[simp] theorem squeezeBytes_ecause (n : Nat) (s : State) : (squeezeBytes n s).2.ecause = s.ecause := by rw [squeezeBytes_frame]
@[simp] theorem squeezeBytes_sticky (n : Nat) (s : State) : (squeezeBytes n s).2.sticky = s.sticky := by rw [squeezeBytes_frame]
@[simp] theorem squeezeBytes_busy (n : Nat) (s : State) : (squeezeBytes n s).2.busy = s.busy := by rw [squeezeBytes_frame]
@[simp] theorem squeezeBytes_pcmd (n : Nat) (s : State) : (squeezeBytes n s).2.pcmd = s.pcmd := by rw [squeezeBytes_frame]
@[simp] theorem squeezeBytes_pdin (n : Nat) (s : State) : (squeezeBytes n s).2.pdin = s.pdin := by rw [squeezeBytes_frame]
@[simp] theorem squeezeBytes_held (n : Nat) (s : State) : (squeezeBytes n s).2.held = s.held := by rw [squeezeBytes_frame]
@[simp] theorem squeezeBytes_inputs (n : Nat) (s : State) : (squeezeBytes n s).2.inputs = s.inputs := by rw [squeezeBytes_frame]
@[simp] theorem squeezeBytes_answers (n : Nat) (s : State) : (squeezeBytes n s).2.answers = s.answers := by rw [squeezeBytes_frame]
@[simp] theorem squeezeBytes_turn (n : Nat) (s : State) : (squeezeBytes n s).2.turn = s.turn := by rw [squeezeBytes_frame]

/-- Finalize() leaves the registers it does not name. -/
theorem finalize_frame (s : State) :
    finalize s = { s with lanes := (finalize s).lanes, buf := Vector.replicate 199 0, buflen := 0, fin := true, cur := 0,
                          permCount := s.permCount + 1 } := by
  simp only [finalize, padInput, State.permute, State.xorBlock, State.xorStateByte, State.pushByte]

/-- Where FIN = 1 there is nothing to finalize. -/
theorem ensureFinal_of_fin {s : State} (h : s.fin = true) : ensureFinal s = s := if_pos h

/-- Where FIN = 0, the context is finalized first. -/
theorem ensureFinal_of_not_fin {s : State} (h : s.fin = false) : ensureFinal s = finalize s := if_neg (by simp [h])

end Sys2Proof.Machine
end

