-- ==== Sys2Proof/Laws/Commands.lean ====
section
/-! SUPPORT. Laws of the commands: when a command's checks pass, and everything a command can do. -/

namespace Sys2Proof.Machine

seal keccakP

/-- No check fails exactly when each of them passes. -/
theorem firstFailing_none {l : List (Bool × Cause)} : firstFailing l = none ↔ ∀ p ∈ l, p.1 = false := by
  induction l with
  | nil => simp [firstFailing]
  | cons p ps ih => obtain ⟨b, c⟩ := p; cases b <;> simp [firstFailing, ih]

/-- The cause reported is that of a check that failed. -/
theorem firstFailing_some {l : List (Bool × Cause)} {c : Cause} (h : firstFailing l = some c) : (true, c) ∈ l := by
  induction l with
  | nil => cases h
  | cons p ps ih => obtain ⟨b, d⟩ := p; cases b <;> simp_all [firstFailing]

/-- A failure other than INVARIANT is a next state. -/
theorem failCommand_next {c : Cause} (h : c ≠ .invariant) (s : State) : failCommand c s = .next (s.raise c) := if_neg h

/-- INVARIANT is the fault. -/
theorem failCommand_invariant (s : State) :
    failCommand .invariant s = .fault (.invariantFailed (s.raise .invariant)) := if_pos rfl

/-- INIT takes a legal rate. -/
theorem initFailure_none {r : BitVec 8} (h : RateLegal r) : initFailure r = none := by
  have : decide (¬RateLegal r) = false := decide_eq_false (not_not.2 h)
  simp only [initFailure, firstFailing, this]; rfl

/-- INIT rejects any other rate. -/
theorem initFailure_some {r : BitVec 8} (h : ¬RateLegal r) : initFailure r = some .badRate := by
  have : decide (¬RateLegal r) = true := decide_eq_true h
  simp only [initFailure, firstFailing, this]; rfl

/-- ABSORB's checks pass. -/
theorem absorbFailure_none {n : BitVec 4} {s : State} (hn : n.toNat ≤ 8) (hc : s.ctxv = true) (hi : s.Inv)
    (hf : s.fin = false) : absorbFailure n s = none := by
  have hn' : LengthLegal n := hn
  simp only [absorbFailure, firstFailing, hn', hc, hi, hf, not_true, decide_false, Bool.not_true, Bool.false_eq_true, if_false]

/-- SQUEEZE's checks pass. -/
theorem squeezeFailure_none {n : BitVec 4} {s : State} (hn : n.toNat ≤ 8) (hc : s.ctxv = true) (hi : s.Inv) :
    squeezeFailure n s = none := by
  have hn' : LengthLegal n := hn
  simp only [squeezeFailure, firstFailing, hn', hc, hi, not_true, decide_false, Bool.not_true, Bool.false_eq_true, if_false]

/-- INVARIANT is the cause only outside INV (60_exceptions.md R205). -/
theorem absorbFailure_invariant {n : BitVec 4} {s : State} (h : absorbFailure n s = some .invariant) :
    s.ctxv = true ∧ ¬s.Inv := by
  unfold absorbFailure at h
  generalize hi : decide (¬s.Inv) = failed at h
  generalize decide (¬LengthLegal n) = long at h
  cases failed
  · cases long <;> cases hc : s.ctxv <;> simp [firstFailing, hc] at h
  · refine ⟨?_, of_decide_eq_true hi⟩
    cases hc : s.ctxv
    · cases long <;> simp [firstFailing, hc] at h
    · rfl

/-- INVARIANT is the cause only outside INV (60_exceptions.md R205). -/
theorem squeezeFailure_invariant {n : BitVec 4} {s : State} (h : squeezeFailure n s = some .invariant) :
    s.ctxv = true ∧ ¬s.Inv := by
  unfold squeezeFailure at h
  generalize hi : decide (¬s.Inv) = failed at h
  generalize decide (¬LengthLegal n) = long at h
  cases failed
  · cases long <;> cases hc : s.ctxv <;> simp [firstFailing, hc] at h
  · refine ⟨?_, of_decide_eq_true hi⟩
    cases hc : s.ctxv
    · cases long <;> simp [firstFailing, hc] at h
    · rfl

/-- Everything a command can do: a failure that changes ERR, ECAUSE and STICKY, the INVARIANT fault outside INV, or its
own effect (60_exceptions.md R202, R203, R205). -/
theorem exec_cases (i : Instr) (s : State) :
    (∃ c, c ≠ .invariant ∧ exec i s = .next (s.raise c)) ∨
    (s.ctxv = true ∧ ¬s.Inv ∧ exec i s = .fault (.invariantFailed (s.raise .invariant))) ∨
    (∃ r d, i = .init r d ∧ RateLegal r ∧ exec i s = .next (s.freshContext r d).succeed) ∨
    (∃ n, i = .absorb n ∧ n.toNat ≤ 8 ∧ s.ctxv = true ∧ s.Inv ∧ s.fin = false ∧
      exec i s = .next (absorbBytes s (messageBytes s.pdin n.toNat)).succeed) ∨
    (∃ n, i = .squeeze n ∧ n.toNat ≤ 8 ∧ s.ctxv = true ∧ s.Inv ∧
      exec i s = .next (squeezeOut n.toNat (ensureFinal s)).succeed) := by
  cases i with
  | init r d =>
    simp only [exec, execInit]
    by_cases hr : RateLegal r
    · rw [initFailure_none hr]; exact Or.inr (Or.inr (Or.inl ⟨r, d, rfl, hr, rfl⟩))
    · rw [initFailure_some hr]; exact Or.inl ⟨_, by decide, failCommand_next (by decide) s⟩
  | absorb n =>
    simp only [exec, execAbsorb]
    cases hf : absorbFailure n s with
    | some c =>
      by_cases hc : c = .invariant
      · subst hc
        have h := absorbFailure_invariant hf
        exact Or.inr (Or.inl ⟨h.1, h.2, failCommand_invariant s⟩)
      · exact Or.inl ⟨c, hc, failCommand_next hc s⟩
    | none =>
      have h := firstFailing_none.1 hf
      have h1 := h (decide (¬LengthLegal n), .badLength) (by simp)
      have h2 := h (!s.ctxv, .noContext) (by simp)
      have h3 := h (decide (¬s.Inv), .invariant) (by simp)
      have h4 := h (s.fin, .absorbAfterFinal) (by simp)
      refine Or.inr (Or.inr (Or.inr (Or.inl ⟨n, rfl, by simpa using h1, by simpa using h2, ?_, by simpa using h4, rfl⟩)))
      simpa only [decide_eq_false_iff_not, not_not] using h3
  | squeeze n =>
    simp only [exec, execSqueeze]
    cases hf : squeezeFailure n s with
    | some c =>
      by_cases hc : c = .invariant
      · subst hc
        have h := squeezeFailure_invariant hf
        exact Or.inr (Or.inl ⟨h.1, h.2, failCommand_invariant s⟩)
      · exact Or.inl ⟨c, hc, failCommand_next hc s⟩
    | none =>
      have h := firstFailing_none.1 hf
      have h1 := h (decide (¬LengthLegal n), .badLength) (by simp)
      have h2 := h (!s.ctxv, .noContext) (by simp)
      have h3 := h (decide (¬s.Inv), .invariant) (by simp)
      refine Or.inr (Or.inr (Or.inr (Or.inr ⟨n, rfl, by simpa using h1, by simpa using h2, ?_, rfl⟩)))
      simpa only [decide_eq_false_iff_not, not_not] using h3

/-- Everything a command that answers a next state can have done. -/
theorem exec_next_cases {i : Instr} {s t : State} (h : exec i s = .next t) :
    (∃ c, c ≠ .invariant ∧ t = s.raise c) ∨
    (∃ r d, i = .init r d ∧ RateLegal r ∧ t = (s.freshContext r d).succeed) ∨
    (∃ n, i = .absorb n ∧ n.toNat ≤ 8 ∧ s.ctxv = true ∧ s.Inv ∧ s.fin = false ∧
      t = (absorbBytes s (messageBytes s.pdin n.toNat)).succeed) ∨
    (∃ n, i = .squeeze n ∧ n.toNat ≤ 8 ∧ s.ctxv = true ∧ s.Inv ∧ t = (squeezeOut n.toNat (ensureFinal s)).succeed) := by
  rcases exec_cases i s with ⟨c, hc, e⟩ | ⟨_, _, e⟩ | ⟨r, d, hi, hr, e⟩ | ⟨n, hi, hn, h1, h2, h3, e⟩ | ⟨n, hi, hn, h1, h2, e⟩ <;>
    rw [e] at h
  · exact Or.inl ⟨c, hc, (Host.Outcome.next.inj h).symm⟩
  · cases h
  · exact Or.inr (Or.inl ⟨r, d, hi, hr, (Host.Outcome.next.inj h).symm⟩)
  · exact Or.inr (Or.inr (Or.inl ⟨n, hi, hn, h1, h2, h3, (Host.Outcome.next.inj h).symm⟩))
  · exact Or.inr (Or.inr (Or.inr ⟨n, hi, hn, h1, h2, (Host.Outcome.next.inj h).symm⟩))

/-- In INV every command answers a next state. -/
theorem exec_next (i : Instr) {s : State} (hi : s.Inv) : ∃ t, exec i s = .next t := by
  rcases exec_cases i s with ⟨c, _, e⟩ | ⟨_, h, _⟩ | ⟨_, _, _, _, e⟩ | ⟨_, _, _, _, _, _, e⟩ | ⟨_, _, _, _, _, e⟩
  · exact ⟨_, e⟩
  · exact absurd hi h
  all_goals exact ⟨_, e⟩

/-- ABSORB with a context that is not finalized. -/
theorem exec_absorb_ok {n : BitVec 4} {s : State} (hn : n.toNat ≤ 8) (hc : s.ctxv = true) (hi : s.Inv)
    (hf : s.fin = false) : exec (.absorb n) s = .next (absorbBytes s (messageBytes s.pdin n.toNat)).succeed := by
  simp only [exec, execAbsorb, absorbFailure_none hn hc hi hf]

/-- SQUEEZE with a context. -/
theorem exec_squeeze_ok {n : BitVec 4} {s : State} (hn : n.toNat ≤ 8) (hc : s.ctxv = true) (hi : s.Inv) :
    exec (.squeeze n) s = .next (squeezeOut n.toNat (ensureFinal s)).succeed := by
  simp only [exec, execSqueeze, squeezeFailure_none hn hc hi]

end Sys2Proof.Machine
end

