-- ==== Sys2Proof/Laws/Decode.lean ====
section
/-! SUPPORT. Laws of the command word's fields, the encoder and the decoder. -/

namespace Sys2Proof

/-- A word of format I with OPC 0x01 and no RSVD bit is the word its fields encode. -/
theorem eq_encodeI (r d : BitVec 8) (w : Word) (h1 : opcodeField w = 1#8) (h2 : reservedI w = 0#40) (hr : rateField w = r) (hd : dsepField w = d) : w = encodeI r d := by
  subst hr hd
  have b1 (i : Nat) (hi : i < 8) : w.getLsbD i = (1#8).getLsbD i := by
    have := congrArg (fun x => BitVec.getLsbD x i) h1
    simpa only [opcodeField, BitVec.getLsbD_extractLsb', hi, decide_true, Bool.true_and, Nat.zero_add] using this
  have b2 (i : Nat) (hi : i < 40) : w.getLsbD (24 + i) = false := by
    have := congrArg (fun x => BitVec.getLsbD x i) h2
    simpa only [reservedI, BitVec.getLsbD_extractLsb', hi, decide_true, Bool.true_and, BitVec.ofNat_eq_ofNat, BitVec.getLsbD_zero] using this
  apply BitVec.eq_of_getLsbD_eq
  intro i hi
  simp only [encodeI, BitVec.getLsbD_or, BitVec.getLsbD_shiftLeft, BitVec.getLsbD_setWidth, rateField, dsepField, BitVec.getLsbD_extractLsb']
  by_cases c3 : i < 24
  · have e1 (h : i < 8) := b1 i h
    interval_cases i <;> simp_all
  · have := b2 (i - 24) (by omega)
    have e : 24 + (i - 24) = i := by omega
    rw [e] at this
    rw [this]
    have x1 : ¬ (i - 8 < 8) := by omega
    have x2 : ¬ (i - 16 < 8) := by omega
    have x3 : (1#64).getLsbD i = false := by simp; omega
    simp [x1, x2, x3]

/-- A word of format L with no RSVD bit is the word its OPC and N encode. -/
theorem eq_encodeL (opc : BitVec 8) (n : BitVec 4) (w : Word) (h1 : opcodeField w = opc) (h2 : reservedL w = 0#52) (hr : lengthField w = n) : w = encodeL opc n := by
  subst hr h1
  have b2 (i : Nat) (hi : i < 52) : w.getLsbD (12 + i) = false := by
    have := congrArg (fun x => BitVec.getLsbD x i) h2
    simpa only [reservedL, BitVec.getLsbD_extractLsb', hi, decide_true, Bool.true_and, BitVec.ofNat_eq_ofNat, BitVec.getLsbD_zero] using this
  apply BitVec.eq_of_getLsbD_eq
  intro i hi
  simp only [encodeL, BitVec.getLsbD_or, BitVec.getLsbD_shiftLeft, BitVec.getLsbD_setWidth, opcodeField, lengthField, BitVec.getLsbD_extractLsb']
  by_cases c3 : i < 12
  · interval_cases i <;> simp
  · have := b2 (i - 12) (by omega)
    have e : 12 + (i - 12) = i := by omega
    rw [e] at this
    rw [this]
    have x1 : ¬ (i - 8 < 4) := by omega
    have x2 : ¬ (i < 8) := by omega
    simp [x1, x2]

/-- The fields of an encoded word of format I. -/
theorem fields_encodeI (r d : BitVec 8) : opcodeField (encodeI r d) = 1#8 ∧ reservedI (encodeI r d) = 0#40 ∧ rateField (encodeI r d) = r ∧ dsepField (encodeI r d) = d := by
  refine ⟨?_, ?_, ?_, ?_⟩ <;> (apply BitVec.eq_of_getLsbD_eq; intro i hi; interval_cases i <;> simp [opcodeField, reservedI, rateField, dsepField, encodeI])

/-- The fields of an encoded word of format L. -/
theorem fields_encodeL (o : BitVec 8) (n : BitVec 4) : opcodeField (encodeL o n) = o ∧ reservedL (encodeL o n) = 0#52 ∧ lengthField (encodeL o n) = n := by
  refine ⟨?_, ?_, ?_⟩ <;> (apply BitVec.eq_of_getLsbD_eq; intro i hi; interval_cases i <;> simp [opcodeField, reservedL, lengthField, encodeL])

/-- The decoder rejects a word for its opcode or for its RSVD bits only. -/
theorem decode_error {w : Word} {c : Cause} (h : decode w = .error c) : c = .badOpcode ∨ c = .reservedBits := by
  unfold decode decodeI decodeL at h
  repeat' split at h
  all_goals first | (cases h; done) | (have := Except.error.inj h; simp [← this])

end Sys2Proof
end

