-- ==== Sys2Proof/Laws/PerInstr.lean ====
section
/-! SUPPORT. The statements made per instruction: the family EncodeRow. -/

namespace Sys2Proof.Laws

/-- The word of the command matches the command's own row of the opcode table (30_encoding.md R66). -/
def EncodeRow.Statement (i : Instr) : Prop := (opcodeRow i).accepts (encode i) = true

theorem EncodeRow.init (rate dsep : BitVec 8) : EncodeRow.Statement (.init rate dsep) := by
  simp only [Statement, OpcodeRow.accepts, opcodeRow, encode, encodeI, beq_iff_eq]
  apply BitVec.eq_of_getLsbD_eq
  intro i hi
  interval_cases i <;> simp

theorem EncodeRow.absorb (n : BitVec 4) : EncodeRow.Statement (.absorb n) := by
  simp only [Statement, OpcodeRow.accepts, opcodeRow, encode, encodeL, beq_iff_eq]
  apply BitVec.eq_of_getLsbD_eq
  intro i hi
  interval_cases i <;> simp

theorem EncodeRow.squeeze (n : BitVec 4) : EncodeRow.Statement (.squeeze n) := by
  simp only [Statement, OpcodeRow.accepts, opcodeRow, encode, encodeL, beq_iff_eq]
  apply BitVec.eq_of_getLsbD_eq
  intro i hi
  interval_cases i <;> simp

end Sys2Proof.Laws
end

