-- ==== Sys2Proof/Laws/Step.lean ====
section
/-! SUPPORT. Laws of the step: everything an access, an event, a completion and a step can do. -/

namespace Sys2Proof.Machine

seal keccakP

/-- Everything an access to the window can do (20_memory.md R42 to R48). -/
theorem windowAccess_cases (off : BitVec 6) (size : AccessSize) (op : AccessOp) (s : State) :
    (∃ r, windowAccess off size op s = s.respond r) ∨
    (∃ v r, windowAccess off size op s = State.respond r { s with din := v }) ∨
    (∃ w, s.busy = false ∧ windowAccess off size op s = acceptCmd w s) ∨
    (∃ w, s.busy = true ∧ windowAccess off size op s = { s with held := some w }) := by
  unfold windowAccess
  split
  · split
    · exact Or.inl ⟨_, rfl⟩
    · exact Or.inl ⟨_, rfl⟩
    · next r v _ =>
      cases r
      · simp only [writeReg, issueCmd]
        split
        · next hb => exact Or.inr (Or.inr (Or.inr ⟨v, hb, rfl⟩))
        · next hb => exact Or.inr (Or.inr (Or.inl ⟨v, by simpa using hb, rfl⟩))
      · exact Or.inr (Or.inl ⟨v, _, rfl⟩)
      all_goals exact Or.inl ⟨_, rfl⟩
  · exact Or.inl ⟨_, rfl⟩

/-- Everything a host event can do. -/
theorem takeEvent_cases (e : HostEvent) (s : State) :
    (e = .rst ∧ takeEvent e s = resetEdge s) ∨
    (e ≠ .rst ∧ takeEvent e s = s) ∨
    (e ≠ .rst ∧ ∃ r, takeEvent e s = s.respond r) ∨
    (e ≠ .rst ∧ ∃ v r, takeEvent e s = State.respond r { s with din := v }) ∨
    (e ≠ .rst ∧ ∃ w, s.busy = false ∧ takeEvent e s = acceptCmd w s) ∨
    (e ≠ .rst ∧ ∃ w, s.busy = true ∧ takeEvent e s = { s with held := some w }) := by
  cases e with
  | rst => exact Or.inl ⟨rfl, rfl⟩
  | wait => exact Or.inr (Or.inr (Or.inl ⟨by simp, _, rfl⟩))
  | access a =>
    right
    simp only [takeEvent, busAccess]
    split
    · exact Or.inl ⟨by simp, rfl⟩
    · next off _ =>
      rcases windowAccess_cases off a.size a.op s with h | h | h | h
      · exact Or.inr (Or.inl ⟨by simp, h⟩)
      · exact Or.inr (Or.inr (Or.inl ⟨by simp, h⟩))
      · exact Or.inr (Or.inr (Or.inr (Or.inl ⟨by simp, h⟩)))
      · exact Or.inr (Or.inr (Or.inr (Or.inr ⟨by simp, h⟩)))

/-- Everything a completion can do: the word's own error, or the command's outcome with BUSY <- 0. -/
theorem complete_cases (s : State) :
    (∃ c, (c = .badOpcode ∨ c = .reservedBits) ∧ decode s.pcmd = .error c ∧ complete s = .next (s.raise c).release) ∨
    (∃ i u, decode s.pcmd = .ok i ∧ exec i s = .next u ∧ complete s = .next u.release) ∨
    (s.ctxv = true ∧ ¬s.Inv ∧ complete s = .fault (.invariantFailed (s.raise .invariant).release)) := by
  unfold complete
  cases hd : decode s.pcmd with
  | error c => exact Or.inl ⟨c, decode_error hd, rfl, rfl⟩
  | ok i =>
    rcases exec_cases i s with ⟨_, _, e⟩ | ⟨h1, h2, e⟩ | ⟨_, _, _, _, e⟩ | ⟨_, _, _, _, _, _, e⟩ | ⟨_, _, _, _, _, e⟩ <;>
      simp only [e, releaseOutcome]
    · exact Or.inr (Or.inl ⟨i, _, rfl, e, rfl⟩)
    · exact Or.inr (Or.inr ⟨h1, h2, rfl⟩)
    all_goals exact Or.inr (Or.inl ⟨i, _, rfl, e, rfl⟩)

/-- Everything a completion that answers a next state can have done. -/
theorem complete_next_cases {s t : State} (h : complete s = .next t) :
    (∃ c, (c = .badOpcode ∨ c = .reservedBits) ∧ decode s.pcmd = .error c ∧ t = (s.raise c).release) ∨
    (∃ i u, decode s.pcmd = .ok i ∧ exec i s = .next u ∧ t = u.release) := by
  rcases complete_cases s with ⟨c, hc, hd, e⟩ | ⟨i, u, hd, hu, e⟩ | ⟨_, _, e⟩ <;> rw [e] at h
  · exact Or.inl ⟨c, hc, hd, (Host.Outcome.next.inj h).symm⟩
  · exact Or.inr ⟨i, u, hd, hu, (Host.Outcome.next.inj h).symm⟩
  · cases h

/-- Everything a step that answers a next state can have done. -/
theorem step_cases {s t : State} (h : step s = .next t) :
    (hostReady s = true ∧ ∃ w, s.held = some w ∧ s.busy = false ∧ t = acceptCmd w s.nextTurn) ∨
    (hostMoves s = true ∧ s.held = none ∧ ∃ e es, s.inputs = e :: es ∧ t = takeEvent e s.nextTurn.dropInput ∧ (e = .wait → s.busy = false)) ∨
    (s.busy = true ∧ complete s.nextTurn = .next t) ∨
    (s.busy = false ∧ t = s) := by
  unfold step at h
  split at h
  · next hm =>
    have hr : hostReady s = true := by simp [hostMoves] at hm; exact hm.1
    unfold hostStep at h
    split at h
    · next w hw =>
      split at h
      · cases h
      · next hb => exact Or.inl ⟨hr, w, hw, by simpa using hb, (Host.Outcome.next.inj h).symm⟩
    · next hh =>
      have hh' : s.held = none := hh
      split at h
      · next hi =>
        have hi' : s.inputs = [] := hi
        simp [hostReady, hh', hi'] at hr
      · next e es hi =>
        have hi' : s.inputs = e :: es := hi
        refine Or.inr (Or.inl ⟨hm, hh', e, es, hi', (Host.Outcome.next.inj h).symm, ?_⟩)
        rintro rfl
        simpa [hostReady, hh', hi'] using hr
  · split at h
    · next hb => exact Or.inr (Or.inr (Or.inl ⟨hb, h⟩))
    · next hb => exact Or.inr (Or.inr (Or.inr ⟨by simpa using hb, (Host.Outcome.next.inj h).symm⟩))

/-- The registers a command writes agree; the host's part may differ. -/
def CommandEq (s t : State) : Prop :=
  t.lanes = s.lanes ∧ t.rate = s.rate ∧ t.dsep = s.dsep ∧ t.ctxv = s.ctxv ∧ t.buf = s.buf ∧ t.buflen = s.buflen ∧
  t.fin = s.fin ∧ t.cur = s.cur ∧ t.dout = s.dout ∧ t.err = s.err ∧ t.ecause = s.ecause ∧ t.sticky = s.sticky

/-- For the registers a command writes, a step is nothing, a reset, or a completion. -/
theorem step_command {s t : State} (h : step s = .next t) :
    CommandEq s t ∨
    (s.inputs.head? = some .rst ∧ s.held = none ∧ t = resetEdge s.nextTurn.dropInput) ∨
    (s.busy = true ∧ complete s.nextTurn = .next t) := by
  rcases step_cases h with ⟨_, w, _, _, rfl⟩ | ⟨_, hh, e, es, hi, rfl, _⟩ | h | ⟨_, rfl⟩
  · left; simp [CommandEq, acceptCmd, grantAccess]
  · rcases takeEvent_cases e s.nextTurn.dropInput with ⟨rfl, h⟩ | ⟨_, h⟩ | ⟨_, _, h⟩ | ⟨_, _, _, h⟩ | ⟨_, _, _, h⟩ | ⟨_, _, _, h⟩
    · right; left; exact ⟨by rw [hi]; rfl, hh, h⟩
    all_goals left; rw [h]; simp [CommandEq, acceptCmd, grantAccess]
  · right; right; exact h
  · left; exact ⟨rfl, rfl, rfl, rfl, rfl, rfl, rfl, rfl, rfl, rfl, rfl, rfl⟩

/-- A run goes on from a next state. -/
theorem run_next {s t : State} (h : step s = .next t) (k : Nat) :
    Host.Core.run Sys2Proof.core (k + 1) s = Host.Core.run Sys2Proof.core k t := by
  have h' : Sys2Proof.core.step s = .next t := h
  simp only [Host.Core.run, h']

/-- A run ends in a fault. -/
theorem run_fault {s : State} {r : Fault} (h : step s = .fault r) (k : Nat) :
    Host.Core.run Sys2Proof.core (k + 1) s = .fault r := by
  have h' : Sys2Proof.core.step s = .fault r := h
  simp only [Host.Core.run, h']

end Sys2Proof.Machine
end

