-- ==== Sys2Proof/WellFormed.lean ====
section
/-! DEFINITION. The legal operand values of a command (30_encoding.md R61, R62, R66). -/

namespace Sys2Proof

/-- Every field of the command has a legal value. -/
def WellFormed : Instr → Bool
  | .init rate _ => decide (RateLegal rate)
  | .absorb n => decide (LengthLegal n)
  | .squeeze n => decide (LengthLegal n)

end Sys2Proof
end

