-- ==== Sys2Proof/Tests/Slice0.lean ====
section
/-! SUPPORT. Tests with expected results from the spec's own tables (95_test_vectors.md, 30_encoding.md section 4), and a
witness for the hypotheses of each statement of Certificates/Slice0/Obligations.lean. -/

namespace Sys2Proof.Tests

open Sys2Proof.Machine

/-! ### Small states -/

/-- A fresh context of rate r and separation byte d. -/
def fresh (r d : Byte) : State := { State.reset with rate := r, dsep := d, ctxv := true }

/-- The context of 95_test_vectors.md 3.2 after Finalize, with its first two lanes. -/
def finalized : State :=
  { fresh 168 0x1F with
    lanes := setLane (setLane (Vector.replicate 25 0) 0 0xF2AF83591C5F411E) 1 0x53BB177D27179216, fin := true }

/-- A state with a pending command. -/
def pending (w : Word) (s : State) : State := { s with pcmd := w, busy := true }

/-- A context outside INV: BUFLEN is not below RATE. -/
def outside : State := { fresh 8 0x1F with buflen := 8 }

/-- The lane state A[i] = i of 95_test_vectors.md 2.2. -/
def counting : Lanes := Vector.ofFn fun i => BitVec.ofNat 64 i.val

/-- What a test looks at of an outcome: the STATUS word and DOUT of a next state. -/
def seen : Host.Outcome State Fault Refusal → Option (Word × Word)
  | .next t => some (t.statusWord, t.dout)
  | .fault _ => none
  | .refused _ => none

/-! ### Well-formed commands -/

theorem test_wellFormed_limits :
    WellFormed (.init 1 0) = true ∧ WellFormed (.init 199 0xFF) = true ∧ WellFormed (.absorb 8) = true ∧
      WellFormed (.squeeze 0) = true := by decide

theorem test_wellFormed_rejects_rate_zero : WellFormed (.init 0 0x1F) = false := by decide
theorem test_wellFormed_rejects_rate_200 : WellFormed (.init 200 0x1F) = false := by decide
theorem test_wellFormed_rejects_absorb_9 : WellFormed (.absorb 9) = false := by decide
theorem test_wellFormed_rejects_squeeze_9 : WellFormed (.squeeze 9) = false := by decide

/-! ### Decoding: words written out bit by bit from the formats of R61 and R62 (RSVD, fields, OPC) -/

/-- INIT 168, 0x1F: 40 RSVD bits, DSEP 00011111, RATE 10101000, OPC 00000001. -/
theorem test_decode_init :
    decode (0#40 ++ 0b00011111#8 ++ 0b10101000#8 ++ 0b00000001#8) = .ok (.init 168 0x1F) := by rfl

/-- ABSORB 3: 52 RSVD bits, N 0011, OPC 00000010. -/
theorem test_decode_absorb : decode (0#52 ++ 0b0011#4 ++ 0b00000010#8) = .ok (.absorb 3) := by rfl

/-- SQUEEZE 8: 52 RSVD bits, N 1000, OPC 00000011. -/
theorem test_decode_squeeze : decode (0#52 ++ 0b1000#4 ++ 0b00000011#8) = .ok (.squeeze 8) := by rfl

/-- The precedence words of 95_test_vectors.md 4.5. -/
theorem test_decode_rejects :
    decode 0x0000000000000004 = .error .badOpcode ∧ decode 0xFFFFFFFFFFFFFF05 = .error .badOpcode ∧
      decode 0x0000000000001902 = .error .reservedBits ∧ decode 0x0000000001000001 = .error .reservedBits ∧
      decode 0x8000000000000003 = .error .reservedBits := by
  refine ⟨?_, ?_, ?_, ?_, ?_⟩ <;> rfl

/-- The words of 30_encoding.md section 4. -/
theorem test_encode :
    encode (.init 168 0x07) = 0x000000000007A801 ∧ encode (.init 136 0x06) = 0x0000000000068801 ∧
      encode (.absorb 8) = 0x0000000000000802 ∧ encode (.squeeze 0) = 0x0000000000000003 := by decide

theorem test_decodeTableWord : decodeTableWord 64 0x1FA801 = some (.init 168 0x1F) := by rfl

/-! ### Permutation and codec (95_test_vectors.md 2 and 3.1) -/

theorem test_rotl64 :
    rotl64 0x8000000000000001 1 = 0x3 ∧ rotl64 0x0123456789ABCDEF 64 = 0x0123456789ABCDEF ∧
      rotl64 1 63 = 0x8000000000000000 ∧ rotl64 1 44 = 0x0000100000000000 := by decide

/-- 2.2: lanes 4 and 19 after θ. -/
theorem test_theta : laneAt (theta counting) 4 = 0x2F ∧ laneAt (theta counting) 19 = 0x38 := by decide +kernel

/-- 2.2: lanes 1, 7 and 10 after ρ and π. -/
theorem test_rhoPi :
    laneAt (rhoPi (theta counting)) 1 = 0x0000E00000000000 ∧ laneAt (rhoPi (theta counting)) 7 = 0x80 ∧
      laneAt (rhoPi (theta counting)) 10 = 0x12 := by decide +kernel

/-- 2.2: lanes 0, 5 and 24 of a whole round. -/
theorem test_round :
    laneAt (keccakRound counting 12) 0 = 0x0000180080008091 ∧ laneAt (keccakRound counting 12) 5 = 0x00000001D0000080 ∧
      laneAt (keccakRound counting 12) 24 = 0x0B00000000000074 := by decide +kernel

/-- 2.4: lanes 0, 11 and 24 of Permute(S[i] = i). -/
theorem test_permute :
    laneAt (keccakP counting) 0 = 0x31CCB6FEE8EECCFE ∧ laneAt (keccakP counting) 11 = 0x0FDADE9DEC4F977C ∧
      laneAt (keccakP counting) 24 = 0x72FA1A9D2DC565DD := by decide +kernel

/-- 3.1: XorStateByte(167, 0x80) on the zero state. -/
theorem test_xorStateByte : laneAt (xorByteInto (Vector.replicate 25 0) 167 0x80) 20 = 0x8000000000000000 := by decide

/-- 3.1: XorBlock(9) of 01 02 … 09 on the zero state. -/
theorem test_xorBlock :
    let buf : Buffer := Vector.ofFn fun i => BitVec.ofNat 8 (i.val + 1)
    laneAt (xorBlockInto (Vector.replicate 25 0) buf 9) 0 = 0x0807060504030201 ∧
      laneAt (xorBlockInto (Vector.replicate 25 0) buf 9) 1 = 0x9 := by decide +kernel

/-- 3.1: ReadStateBytes(5, 6), unpack and pack. -/
theorem test_codec :
    readStateBytes finalized.lanes 5 6 = [0x83, 0xAF, 0xF2, 0x16, 0x92, 0x17] ∧
      messageBytes 0xDEADBEEF00FFFFFF 3 = [0xFF, 0xFF, 0xFF] ∧
      packBytes [0x1E, 0x41, 0x5F, 0x1C, 0x59, 0x83, 0xAF, 0xF2] = 0xF2AF83591C5F411E := by decide +kernel

/-! ### Commands, one step each (95_test_vectors.md 4) -/

/-- I1: STATUS and CONFIG after INIT 168, 0x1F from reset; CONFIG for P_RPC = 1. -/
theorem test_init :
    seen (exec (.init 168 0x1F) State.reset) = some (0x0000000000000002, 0) ∧
      configWordFor 1 168 0x1F = 0x000000010C0C1FA8 := by decide

/-- I6 and I7: BAD_RATE. -/
theorem test_init_badRate :
    seen (exec (.init 0 0x1F) State.reset) = some (0x0000000000000318, 0) ∧
      seen (exec (.init 200 0x1F) State.reset) = some (0x0000000000000318, 0) := by decide

/-- A1: BUFLEN counts; A10 and A11: after finalization; 4.5 step 2: no context. -/
theorem test_absorb :
    seen (exec (.absorb 3) { fresh 168 0x07 with pdin := 0xFFFFFF }) = some (0x0000000000030002, 0) ∧
      seen (exec (.absorb 0) finalized) = some (0x000000000000062E, 0) ∧
      seen (exec (.absorb 1) State.reset) = some (0x0000000000000528, 0) := by decide +kernel

/-- A5 before and at the block's end: 8 bytes at rate 5 leave BUFLEN = 3, with one permutation. -/
theorem test_absorb_block :
    seen (exec (.absorb 8) { fresh 5 0x1F with pdin := 0x0706050403020100 }) = some (0x0000000000030002, 0) ∧
      permutationsOf (.absorb 8) { fresh 5 0x1F with pdin := 0x0706050403020100 } = 1 := by decide +kernel

/-- S1: SQUEEZE 8 on a fresh context finalizes and gives the first bytes of TSJS vector 1. -/
theorem test_squeeze : seen (exec (.squeeze 8) (fresh 168 0x1F)) = some (0x0000000008000006, 0xF2AF83591C5F411E) := by
  decide +kernel

/-- S2, the second SQUEEZE: five bytes from CUR = 3. -/
theorem test_squeeze_continues :
    seen (exec (.squeeze 5) { finalized with cur := 3 }) = some (0x0000000008000006, 0x000000F2AF83591C) := by
  decide +kernel

/-- S4: SQUEEZE 0 at CUR = RATE makes no permutation and leaves STATUS. -/
theorem test_squeeze_lazy :
    seen (exec (.squeeze 0) { finalized with cur := 168 }) = some (0x00000000A8000006, 0) ∧
      permutationsOf (.squeeze 0) { finalized with cur := 168 } = 0 := by decide +kernel

/-- 4.7: cycles for P_RPC = 1 and 12, k = 0, 1 and 8. -/
theorem test_cycles :
    commandCycles .one 0 = 1 ∧ commandCycles .one 1 = 13 ∧ commandCycles .twelve 8 = 9 ∧ commandCycles .one 8 = 97 := by
  decide

/-! ### Steps, bus and assembler -/

/-- The next step runs the placed word: 4.5 step 1 and I1, with BUSY = 0 after it. -/
theorem test_step_placed :
    seen (step (State.reset.withFetchWord 64 0)) = some (0x0000000000000118, 0) ∧
      seen (step (State.reset.withFetchWord 64 0x1FA801)) = some (0x0000000000000002, 0) := ⟨rfl, rfl⟩

/-- 4.6: refused accesses and a DIN write. -/
theorem test_window :
    (windowAccess 0x18 .b4 .read State.reset).answers = [⟨0x18, .read, .slverr, 0⟩] ∧
      (windowAccess 0x0C .b8 .read State.reset).answers = [⟨0x0C, .read, .slverr, 0⟩] ∧
      (windowAccess 0x08 .b8 (.write 0x1234) State.reset).din = 0x1234 ∧
      (windowAccess 0x10 .b8 (.write 1) State.reset).dout = 0 := by decide

/-- H5: STATUS while a SQUEEZE is pending: BUSY = 1, and the other fields as before the command. -/
theorem test_busy_status : (pending 0x803 (fresh 168 0x1F)).statusWord = 0x0000000000000003 := by decide

/-- The assembler's limits (30_encoding.md R67) and a pseudo-instruction (R68). -/
theorem test_assembler :
    initWord 168 0x1F = 0x00000000001FA801 ∧ (assemble (.init 256 0)).isNone = true ∧
      (assemble (.absorb 16)).isNone = true ∧ (assemble (.wr .status 0)).isNone = true ∧
      expand (.squeezeV 8) = [.squeeze 8, .wait, .rd .dout] := by
  refine ⟨by decide, by decide, by decide, by decide, by decide⟩

/-! ### Witnesses: states and operands that meet the hypotheses of the statements -/

theorem witness_DecodeByMatches :
    (0x00000000001FC701#64 &&& 0xFFFFFFFFFF0000FF#64 = 0x1#64) ∧ (0xF02#64 &&& 0xFFFFFFFFFFFFF0FF#64 = 0x2#64) ∧
      (0x003#64 &&& 0xFFFFFFFFFFFFF0FF#64 = 0x3#64) ∧
      (0x1003#64 &&& 0xFFFFFFFFFF0000FF#64 ≠ 0x1#64 ∧ 0x1003#64 &&& 0xFFFFFFFFFFFFF0FF#64 ≠ 0x2#64 ∧
        0x1003#64 &&& 0xFFFFFFFFFFFFF0FF#64 ≠ 0x3#64) := by decide

theorem witness_AssembledWordsEncode : (255 ≤ 255 ∧ 255 ≤ 255) ∧ (15 ≤ 15) := by decide

theorem witness_StepRunsDecoded :
    (pending 0x803 finalized).busy = true ∧ hostMoves (pending 0x803 finalized) = false ∧
      decode (pending 0x803 finalized).pcmd = .ok (.squeeze 8) := ⟨rfl, rfl, rfl⟩

theorem witness_StepRejectsWord :
    (pending 4 finalized).busy = true ∧ hostMoves (pending 4 finalized) = false ∧
      decode (pending 4 finalized).pcmd = .error .badOpcode ∧
      decode (pending 0x1003 finalized).pcmd = .error .reservedBits := ⟨rfl, rfl, rfl, rfl⟩

theorem witness_AgentsInterleave :
    ((pending 0x803 finalized).busy = true ∧ hostReady (pending 0x803 finalized) = false) ∧
      (let s : State := { pending 0x803 finalized with inputs := [.rst] }
       s.busy = true ∧ hostReady s = true) ∧
      (let s : State := { finalized with inputs := [.wait] }
       s.busy = false ∧ hostReady s = true) ∧
      (finalized.busy = false ∧ hostReady finalized = false) := ⟨⟨rfl, rfl⟩, ⟨rfl, rfl⟩, ⟨rfl, rfl⟩, ⟨rfl, rfl⟩⟩

/-- A CMD write that is held waits for BUSY = 0 (AgentsInterleave, CmdWrite). -/
theorem witness_held_write :
    hostReady { pending 0x803 finalized with held := some 0x802 } = false ∧
      hostReady { finalized with held := some 0x802 } = true := ⟨rfl, rfl⟩

theorem witness_InitCompletes :
    (1 ≤ (1 : BitVec 8).toNat ∧ (1 : BitVec 8).toNat ≤ 199) ∧ (1 ≤ (199 : BitVec 8).toNat ∧ (199 : BitVec 8).toNat ≤ 199) := by
  decide

/-- The three outcomes: an RSVD bit, RATE = 0 and 200, RATE = 199. -/
theorem witness_InitWordOutcome :
    (pending 0x0000000001000001 State.reset).pcmd.extractLsb' 0 8 = 0x01#8 ∧
      (pending 0x00000000001F0001 State.reset).pcmd.extractLsb' 0 8 = 0x01#8 ∧
      (pending 0x00000000001FC801 State.reset).pcmd.extractLsb' 0 8 = 0x01#8 ∧
      (pending 0x00000000001FC701 State.reset).pcmd.extractLsb' 0 8 = 0x01#8 := by decide

theorem witness_OutputsForgetHistory : 1 ≤ (168 : BitVec 8).toNat ∧ (168 : BitVec 8).toNat ≤ 199 := by decide

/-- Also for AbsorbIsBlockwise, SqueezeFinalizesFirst, SqueezeCompletes and the FIN = 0 clause of SqueezeNothing. -/
theorem witness_AbsorbCompletes :
    (8 : BitVec 4).toNat ≤ 8 ∧ (fresh 1 0x1F).ctxv = true ∧ (fresh 1 0x1F).Inv ∧ (fresh 1 0x1F).fin = false := by decide

theorem witness_AbsorbSplit :
    ∃ t u, (3 : BitVec 4).toNat + (5 : BitVec 4).toNat ≤ 8 ∧ (fresh 168 0x1F).ctxv = true ∧ (fresh 168 0x1F).Inv ∧
      (fresh 168 0x1F).fin = false ∧ exec (.absorb 3) (fresh 168 0x1F) = .next t ∧
      exec (.absorb 5) { t with pdin := (fresh 168 0x1F).pdin >>> (8 * (3 : BitVec 4).toNat) } = .next u :=
  ⟨_, _, by decide, rfl, by decide, rfl, rfl, rfl⟩

/-- Vector A9 beside A1. -/
theorem witness_AbsorbIgnoresUnusedBytes :
    ∃ t, (∀ k < (3 : BitVec 4).toNat,
        byteOf 0xDEADBEEF00FFFFFF k = byteOf { fresh 168 0x07 with pdin := 0xFFFFFF }.pdin k) ∧
      exec (.absorb 3) { fresh 168 0x07 with pdin := 0xFFFFFF } = .next t := ⟨_, by decide, rfl⟩

theorem witness_FinalizePads :
    { fresh 168 0x1F with buflen := 167 }.ctxv = true ∧ { fresh 168 0x1F with buflen := 167 }.Inv ∧
      { fresh 168 0x1F with buflen := 167 }.fin = false := by decide

/-- BUFLEN = RATE - 1 as in vector S11, and at the smallest rate. -/
theorem witness_PadBytesShare :
    ({ fresh 168 0x1F with buflen := 167 }.Inv ∧
      { fresh 168 0x1F with buflen := 167 }.buflen.toNat = { fresh 168 0x1F with buflen := 167 }.rate.toNat - 1) ∧
    ((fresh 1 0x80).ctxv = true ∧ (fresh 1 0x80).Inv ∧ (fresh 1 0x80).fin = false ∧
      (fresh 1 0x80).buflen.toNat = (fresh 1 0x80).rate.toNat - 1) := by decide

/-- FIN = 1, CUR at 0 and at RATE; also for SqueezeCompletes, SqueezeBytesAreStream and SqueezeNothing. -/
theorem witness_SqueezeReadsStream :
    1 ≤ (8 : BitVec 4).toNat ∧ (8 : BitVec 4).toNat ≤ 8 ∧ finalized.ctxv = true ∧ finalized.Inv ∧ finalized.fin = true ∧
      { finalized with cur := 168 }.Inv := by decide

/-- The counts of vector S2 on a fresh context and on a finalized one, at the bounds of n + m, and a sequence of
counts. -/
theorem witness_SqueezeContinues :
    ((3 : BitVec 4).toNat + (5 : BitVec 4).toNat ≤ 8 ∧ (8 : BitVec 4).toNat + (0 : BitVec 4).toNat ≤ 8) ∧
      ((fresh 168 0x1F).ctxv = true ∧ (fresh 168 0x1F).Inv ∧ (fresh 168 0x1F).fin = false) ∧
      (finalized.ctxv = true ∧ finalized.Inv ∧ finalized.fin = true) ∧
      (∀ n ∈ ([3, 5, 0, 8] : List (BitVec 4)), n.toNat ≤ 8) := by decide

theorem witness_SqueezeHidesCapacity :
    ∃ t₁ t₂, { fresh 8 0x1F with fin := true }.Inv ∧ { fresh 8 0x1F with fin := true }.fin = true ∧
      (8 : BitVec 4).toNat ≤ 8 ∧ (0 : BitVec 8).toNat + (8 : BitVec 4).toNat ≤ (8 : BitVec 8).toNat ∧
      (∀ j < (8 : BitVec 8).toNat,
        stateByte (Vector.replicate 25 0) j = stateByte (setLane (Vector.replicate 25 0) 1 7) j) ∧
      exec (.squeeze 8) { fresh 8 0x1F with fin := true } = .next t₁ ∧
      exec (.squeeze 8) { fresh 8 0x1F with fin := true, lanes := setLane (Vector.replicate 25 0) 1 7 } = .next t₂ :=
  ⟨_, _, by decide, rfl, by decide, by decide, by decide, rfl, rfl⟩

/-- Lane, bit and byte numbers at their bounds: RotationBits, RoundConstantsGenerated, ThetaLanes, RhoPiClosedForm,
ChiIotaLanes, XorBlockBytes (below n and past it), XorBlockLane, XorStateByteBytes, PackedBytes, ResetValues. -/
theorem witness_indices :
    (63 < 64) ∧ (23 < 24 ∧ 63 < 64) ∧ (4 < 5 ∧ 4 < 5) ∧ (24 < 25) ∧ (199 ≤ 199 ∧ 198 < 200 ∧ 199 < 200) ∧
      (192 ≤ 199 ∧ 8 * 23 + 8 ≤ 192) ∧ (199 < 200 ∧ 0 < 200) ∧
      ([0x1E, 0x41, 0x5F, 0x1C, 0x59, 0x83, 0xAF, (0xF2 : Byte)].length ≤ 8 ∧ 7 < 8) ∧ (24 < 25 ∧ 198 < 199) := by
  decide

/-- One word or state for each clause: 95_test_vectors.md 4.5, and a context outside INV. -/
theorem witness_ErrorPriority :
    ((0xFFFFFFFFFFFFFF05#64).extractLsb' 0 8 ≠ 0x01#8 ∧ (0xFFFFFFFFFFFFFF05#64).extractLsb' 0 8 ≠ 0x02#8 ∧
      (0xFFFFFFFFFFFFFF05#64).extractLsb' 0 8 ≠ 0x03#8) ∧
    ((0x1902#64).extractLsb' 0 8 = 0x02#8 ∧ (0x1902#64).extractLsb' 12 52 ≠ 0#52) ∧
    ((0x1FC801#64).extractLsb' 0 8 = 0x01#8 ∧ (0x1FC801#64).extractLsb' 24 40 = 0#40 ∧
      200 ≤ ((0x1FC801#64).extractLsb' 8 8).toNat) ∧
    ((0x903#64).extractLsb' 0 8 = 0x03#8 ∧ (0x903#64).extractLsb' 12 52 = 0#52 ∧
      9 ≤ ((0x903#64).extractLsb' 8 4).toNat) ∧
    ((0x802#64).extractLsb' 0 8 = 0x02#8 ∧ (0x802#64).extractLsb' 12 52 = 0#52 ∧
      ¬9 ≤ ((0x802#64).extractLsb' 8 4).toNat ∧ (pending 0x802 State.reset).ctxv = false) ∧
    ((pending 0x802 outside).ctxv = true ∧ ¬(pending 0x802 outside).Inv) ∧
    ((pending 0x002 finalized).ctxv = true ∧ (pending 0x002 finalized).Inv ∧ (pending 0x002 finalized).fin = true) := by
  decide

theorem witness_UsageErrors :
    (8 : BitVec 4).toNat ≤ 8 ∧ State.reset.ctxv = false ∧
      (finalized.ctxv = true ∧ finalized.Inv ∧ finalized.fin = true) := by decide

/-- One access for each way to be refused. -/
theorem witness_RefusedAccesses :
    AccessSize.b4 ≠ .b8 ∧ (0x0C : BitVec 6).toNat % 8 ≠ 0 ∧ (0x3F : BitVec 6).toNat % 8 ≠ 0 ∧
      ((0x20 : BitVec 6) = 0x20 ∧ AccessOp.write 0 ≠ .read) := by decide

theorem witness_CmdWrite :
    (finalized.held = none ∧ finalized.busy = false) ∧
      ((pending 0x803 finalized).held = none ∧ (pending 0x803 finalized).busy = true) ∧
      (let s : State := { finalized with held := some 0x802, inputs := [.wait] }
       s.held = some 0x802 ∧ s.busy = false ∧ s.inputs.head? ≠ some .rst) ∧
      (let s : State := { pending 0x803 finalized with held := some 0x802, inputs := [.wait] }
       s.held = some 0x802 ∧ s.busy = true ∧ s.inputs.head? ≠ some .rst) := by decide

/-- `rst` behind a held write, with BUSY at either value. -/
theorem witness_HeldWriteAtReset :
    (let s : State := { finalized with held := some 0x802, inputs := [.rst] }
     s.held = some 0x802 ∧ s.inputs.head? = some .rst ∧ s.busy = false) ∧
      (let s : State := { pending 0x803 finalized with held := some 0x802, inputs := [.rst] }
       s.held = some 0x802 ∧ s.inputs.head? = some .rst ∧ s.busy = true) := by decide

/-- The addresses at the two ends, outside the window; Config.base may be 0, so the first is for a base above it. -/
theorem witness_WindowDecode : Config.base + 64 ≤ (Access.mk (Config.base + 64) .b8 .read).addr := Nat.le_refl _

theorem witness_BusyHidesCommand :
    ∃ t, { pending 0x803 finalized with inputs := [memWrite .din 7] }.busy = true ∧
      { pending 0x803 finalized with inputs := [memWrite .din 7] }.inputs.head? ≠ some .rst ∧
      hostStep (State.nextTurn { pending 0x803 finalized with inputs := [memWrite .din 7] }) = .next t :=
  ⟨_, rfl, by simp [memWrite], rfl⟩

/-- Also for UnwaitedReadIsOldOrNew, with its own list of inputs. -/
theorem witness_WaitedReadIsCurrent :
    (∃ s t : State, s.busy = false ∧ s.held = none ∧
      s.inputs = [memWrite .cmd (encode (.squeeze 8)), .wait, memRead .dout] ∧ exec (.squeeze 8) s = .next t) ∧
    (∃ s t : State, s.busy = false ∧ s.held = none ∧
      s.inputs = [memWrite .cmd (encode (.squeeze 8)), memRead .dout] ∧ exec (.squeeze 8) s = .next t) :=
  ⟨⟨{ finalized with inputs := [memWrite .cmd (encode (.squeeze 8)), .wait, memRead .dout] }, _, rfl, rfl, rfl, rfl⟩,
    ⟨{ finalized with inputs := [memWrite .cmd (encode (.squeeze 8)), memRead .dout] }, _, rfl, rfl, rfl, rfl⟩⟩

/-- A state that completes an INIT: also for ContextFixed (RATE and DSEP change) and DoutWriters (DOUT becomes 0). -/
theorem witness_InvKept :
    ∃ t, { pending 0x1F8801 finalized with dout := 1 }.Inv ∧ step { pending 0x1F8801 finalized with dout := 1 } = .next t ∧
      t.rate ≠ finalized.rate ∧ t.dout ≠ 1 ∧ t.fin = false := ⟨_, by decide, rfl, by decide, by decide, rfl⟩

/-- A safe state with a failure recorded, and a step from it; also for StatusLegalKept. -/
theorem witness_SafeKept :
    ∃ t, Safety.Safe { finalized with err := 1, ecause := 0x03, sticky := true } ∧
      step { finalized with err := 1, ecause := 0x03, sticky := true } = .next t :=
  ⟨_, ⟨by decide, Or.inr ⟨.badRate, rfl, rfl, rfl⟩, by simp [Safety.NoInvariantReport, causeCode]⟩, rfl⟩

theorem witness_ReachableSafe : Safety.Reachable State.reset := .start []

/-- `rst` from a state with STICKY and CTXV set; also for ContextFixed, FinalizedOneWay and DoutWriters. -/
theorem witness_OnlyResetClears :
    ∃ t, step { finalized with sticky := true, dout := 1, inputs := [.rst] } = .next t ∧ t.sticky = false ∧
      t.ctxv = false ∧ t.rate ≠ finalized.rate ∧ t.fin = false ∧ t.dout ≠ 1 :=
  ⟨_, rfl, rfl, rfl, by decide, rfl, by decide⟩

/-- A SQUEEZE that finalizes. -/
theorem witness_FinalizedOneWay :
    ∃ t, step (pending 0x003 (fresh 168 0x1F)) = .next t ∧ (fresh 168 0x1F).fin = false ∧ t.fin = true :=
  ⟨_, rfl, rfl, rfl⟩

/-- A SQUEEZE that changes DOUT. -/
theorem witness_DoutWriters :
    ∃ t, step (pending 0x803 finalized) = .next t ∧ t.dout ≠ finalized.dout := ⟨_, rfl, by decide +kernel⟩

/-- With BUSY at either value. -/
theorem witness_ResetEdge :
    ({ finalized with inputs := [.rst] }.inputs = .rst :: [] ∧ { finalized with inputs := [.rst] }.held = none) ∧
      ({ pending 0x803 finalized with inputs := [.rst] }.inputs = .rst :: [] ∧
        { pending 0x803 finalized with inputs := [.rst] }.held = none) := by decide

theorem witness_PermutationBound :
    (8 : BitVec 4).toNat ≤ 8 ∧ { fresh 8 0x1F with buflen := 7 }.ctxv = true ∧ { fresh 8 0x1F with buflen := 7 }.Inv ∧
      { fresh 8 0x1F with buflen := 7 }.fin = false := by decide

theorem witness_BusyEnds :
    (pending 0x803 finalized).Inv ∧ (pending 0x803 finalized).busy = true := by decide

end Sys2Proof.Tests
end

section
/-! PROOFS. Bit fields placed in a 64-bit word, the CONFIG word, and the decoding of the register window; they settle
O43 and O41. -/

namespace Sys2Proof.Machine

/-- A field's value with its lowest bit at bit k of a 64-bit word, as the register layouts of 10_state.md place it. -/
def placedField {w : Nat} (x : BitVec w) (k : Nat) : Word := x.setWidth 64 <<< k

/-- Bit k + i of the word is bit i of the field placed at bit k. -/
theorem getLsbD_placedField {w : Nat} (x : BitVec w) (k i : Nat) :
    (placedField x k).getLsbD i = (decide (k ≤ i ∧ i < 64) && x.getLsbD (i - k)) := by
  by_cases hk : k ≤ i <;> by_cases hi : i < 64 <;> simp [placedField, hk, hi]

/-- Reading a field where it is placed gives its value. -/
theorem extractLsb'_placedField_same {w k : Nat} (h : k + w ≤ 64) (x : BitVec w) :
    (placedField x k).extractLsb' k w = x := by
  apply BitVec.eq_of_getLsbD_eq
  intro i hi
  have hlt : k + i < 64 := by omega
  rw [BitVec.getLsbD_extractLsb', getLsbD_placedField, Nat.add_sub_cancel_left]
  simp [hi, hlt]

/-- Reading a range of bits that a placed field does not meet gives 0. -/
theorem extractLsb'_placedField_apart {w j n k : Nat} (h : j + n ≤ k ∨ k + w ≤ j) (x : BitVec w) :
    (placedField x k).extractLsb' j n = 0 := by
  apply BitVec.eq_of_getLsbD_eq
  intro i hi
  rcases h with below | above
  · have hlt : ¬ k ≤ j + i := by omega
    simp [getLsbD_placedField, hlt]
  · have hge : w ≤ j + i - k := by omega
    simp [getLsbD_placedField, BitVec.getLsbD_of_ge _ _ hge]

/-- The CONFIG word is its five fields, each placed at its bit (10_state.md R23). -/
theorem configWordFor_eq_placedFields (rpc : Nat) (rate dsep : BitVec 8) :
    configWordFor rpc rate dsep = placedField rate 0 ||| placedField dsep 8 ||| placedField 12#8 16 |||
      placedField 12#8 24 ||| placedField (BitVec.ofNat 8 rpc) 32 := by
  simp [configWordFor, placedField]

/-- What each range of bits of the CONFIG word reads (10_state.md R23). -/
theorem configWordFor_fields (rpc : Nat) (rate dsep : BitVec 8) :
    (configWordFor rpc rate dsep).extractLsb' 0 8 = rate ∧
    (configWordFor rpc rate dsep).extractLsb' 8 8 = dsep ∧
    (configWordFor rpc rate dsep).extractLsb' 16 8 = 12 ∧
    (configWordFor rpc rate dsep).extractLsb' 24 8 = 12 ∧
    (configWordFor rpc rate dsep).extractLsb' 32 8 = BitVec.ofNat 8 rpc ∧
    (configWordFor rpc rate dsep).extractLsb' 40 24 = 0 := by
  rw [configWordFor_eq_placedFields]
  simp [BitVec.extractLsb'_or, extractLsb'_placedField_same, extractLsb'_placedField_apart]

/-- The RPC byte of the CONFIG word reads as a legal P_RPC: no legal value is cut to 8 bits (00_scope.md R1). -/
theorem toNat_rpcByte_legal (r : RoundsPerCycle) : (BitVec.ofNat 8 r.toNat).toNat ∈ [1, 2, 3, 4, 6, 12] := by
  cases r <;> decide

/-- An address of the window decodes to its distance from P_BASE (20_memory.md R40). -/
@[simp] theorem windowOffset_base_add (off : BitVec 6) : windowOffset (Config.base + off.toNat) = some off := by
  have hin : Config.base ≤ Config.base + off.toNat ∧ Config.base + off.toNat < Config.base + 64 :=
    ⟨Nat.le_add_right _ _, Nat.add_lt_add_left off.isLt _⟩
  rw [windowOffset, offsetFrom, if_pos hin, Nat.add_sub_cancel_left, BitVec.ofNat_toNat, BitVec.setWidth_eq]

/-- Exactly the addresses outside the 64 bytes from P_BASE decode to no offset (20_memory.md R40). -/
theorem windowOffset_eq_none_iff (addr : Nat) :
    windowOffset addr = none ↔ addr < Config.base ∨ Config.base + 64 ≤ addr := by
  simp only [windowOffset, offsetFrom, ite_eq_right_iff, reduceCtorEq, imp_false]
  omega

/-- An access that is not decoded has no effect (notes/assumptions/5.md). -/
theorem busAccess_of_windowOffset_none {a : Access} (h : windowOffset a.addr = none) (s : State) :
    busAccess a s = s := by
  simp [busAccess, h]

/-- P_BASE is aligned to the window's size (00_scope.md R1). -/
theorem base_mod_window : Config.base % 64 = 0 := Nat.mul_mod_right 64 Config.baseUnits

/-- Settles O43: every byte of the CONFIG word is a placed field, and a legal P_RPC fits its byte. -/
theorem configFields : Obligations.ConfigFields := by
  intro s
  obtain ⟨hrate, hdsep, hrounds, hfirst, hrpc, hreserved⟩ := configWordFor_fields Config.rpc.toNat s.rate s.dsep
  exact ⟨hrate, hdsep, hrounds, hfirst, hrpc ▸ toNat_rpcByte_legal Config.rpc, hreserved⟩

/-- Settles O41: an address decodes exactly when it is among the 64 from P_BASE. -/
theorem windowDecode : Obligations.WindowDecode :=
  ⟨windowOffset_base_add,
    fun a s houtside => busAccess_of_windowOffset_none ((windowOffset_eq_none_iff a.addr).mpr houtside) s,
    base_mod_window⟩

end Sys2Proof.Machine
end

section
/-! PROOFS. The context invariant INV and the safe states: each command and each step keeps them (10_state.md R27,
60_exceptions.md R205). They settle O47, O49, O50 and O51. -/

namespace Sys2Proof.Machine

/-- An absorbing context meets INV. -/
theorem State.inv_of_absorbing {s : State} (hctxv : s.ctxv = true) (hfin : s.fin = false)
    (h : RateLegal s.rate ∧ s.buflen.toNat < s.rate.toNat) (hcur : s.cur = 0) : s.Inv :=
  Or.inr ⟨hctxv, h.1, Or.inl ⟨hfin, h.2, hcur⟩⟩

/-- A squeezing context meets INV. -/
theorem State.inv_of_squeezing {s : State} (hctxv : s.ctxv = true) (hfin : s.fin = true) (hbuflen : s.buflen = 0)
    (h : RateLegal s.rate ∧ s.cur.toNat ≤ s.rate.toNat) : s.Inv :=
  Or.inr ⟨hctxv, h.1, Or.inr ⟨hfin, hbuflen, h.2⟩⟩

/-- A context that meets INV has a legal rate. -/
theorem State.Inv.rateLegal {s : State} (h : s.Inv) (hctxv : s.ctxv = true) : RateLegal s.rate := by
  cases hfin : s.fin
  · exact (h.absorbing hctxv hfin).1
  · exact (h.squeezing hctxv hfin).1

/-- INV speaks of registers that a command writes only. -/
theorem CommandEq.inv {s t : State} (h : CommandEq s t) (hinv : s.Inv) : t.Inv := by
  obtain ⟨_, hrate, _, hctxv, _, hbuflen, hfin, hcur, _⟩ := h
  simpa only [State.Inv, hrate, hctxv, hbuflen, hfin, hcur] using hinv

theorem State.freshContext_inv {r : BitVec 8} (hr : RateLegal r) (d : BitVec 8) (s : State) :
    (s.freshContext r d).Inv :=
  State.inv_of_absorbing rfl rfl ⟨hr, hr.1⟩ rfl

/-- The context stays absorbing after any bytes. -/
theorem absorbBytes_absorbing {s : State} (h : RateLegal s.rate ∧ s.buflen.toNat < s.rate.toNat) (m : List Byte) :
    RateLegal (absorbBytes s m).rate ∧ (absorbBytes s m).buflen.toNat < (absorbBytes s m).rate.toNat := by
  induction m generalizing s with
  | nil => exact h
  | cons b bs ih => exact ih (absorbByte_absorbing h b)

theorem absorbBytes_inv {s : State} (hinv : s.Inv) (hctxv : s.ctxv = true) (hfin : s.fin = false) (m : List Byte) :
    (absorbBytes s m).Inv := by
  obtain ⟨hrate, hbuflen, hcur⟩ := hinv.absorbing hctxv hfin
  exact State.inv_of_absorbing (by simp [hctxv]) (by simp [hfin]) (absorbBytes_absorbing ⟨hrate, hbuflen⟩ m)
    (by simp [hcur])

/-- Finalizing when FIN = 0 leaves FIN at 1 and the registers it does not name (44_squeeze.md R162). -/
theorem ensureFinal_frame (s : State) :
    ensureFinal s = { s with lanes := (ensureFinal s).lanes, buf := (ensureFinal s).buf,
                             buflen := (ensureFinal s).buflen, fin := true, cur := (ensureFinal s).cur,
                             permCount := (ensureFinal s).permCount } := by
  cases hfin : s.fin
  · rw [ensureFinal_of_not_fin hfin]
    conv_lhs => rw [finalize_frame]
    conv_rhs => rw [finalize_frame]
  · rw [ensureFinal_of_fin hfin, ← hfin]

@[simp] theorem ensureFinal_rate (s : State) : (ensureFinal s).rate = s.rate := by rw [ensureFinal_frame]
@[simp] theorem ensureFinal_dsep (s : State) : (ensureFinal s).dsep = s.dsep := by rw [ensureFinal_frame]
@[simp] theorem ensureFinal_ctxv (s : State) : (ensureFinal s).ctxv = s.ctxv := by rw [ensureFinal_frame]
@[simp] theorem ensureFinal_fin (s : State) : (ensureFinal s).fin = true := by rw [ensureFinal_frame]
@[simp] theorem ensureFinal_sticky (s : State) : (ensureFinal s).sticky = s.sticky := by rw [ensureFinal_frame]

theorem ensureFinal_inv {s : State} (hinv : s.Inv) (hctxv : s.ctxv = true) : (ensureFinal s).Inv := by
  cases hfin : s.fin
  · have hrate := hinv.rateLegal hctxv
    rw [ensureFinal_of_not_fin hfin, finalize_frame]
    exact State.inv_of_squeezing hctxv rfl rfl ⟨hrate, Nat.zero_le _⟩
  · rwa [ensureFinal_of_fin hfin]

/-- CUR stays at most RATE over any output bytes. -/
theorem squeezeBytes_ok {s : State} (h : RateLegal s.rate ∧ s.cur.toNat ≤ s.rate.toNat) (n : Nat) :
    RateLegal (squeezeBytes n s).2.rate ∧ (squeezeBytes n s).2.cur.toNat ≤ (squeezeBytes n s).2.rate.toNat := by
  induction n generalizing s with
  | zero => exact h
  | succ n ih => exact ih (squeezeByte_ok h)

@[simp] theorem squeezeOut_rate (n : Nat) (s : State) : (squeezeOut n s).rate = s.rate := squeezeBytes_rate n s
@[simp] theorem squeezeOut_dsep (n : Nat) (s : State) : (squeezeOut n s).dsep = s.dsep := squeezeBytes_dsep n s
@[simp] theorem squeezeOut_ctxv (n : Nat) (s : State) : (squeezeOut n s).ctxv = s.ctxv := squeezeBytes_ctxv n s
@[simp] theorem squeezeOut_buflen (n : Nat) (s : State) : (squeezeOut n s).buflen = s.buflen := squeezeBytes_buflen n s
@[simp] theorem squeezeOut_fin (n : Nat) (s : State) : (squeezeOut n s).fin = s.fin := squeezeBytes_fin n s
@[simp] theorem squeezeOut_sticky (n : Nat) (s : State) : (squeezeOut n s).sticky = s.sticky := squeezeBytes_sticky n s

theorem squeezeOut_inv {s : State} (hinv : s.Inv) (hctxv : s.ctxv = true) (hfin : s.fin = true) (n : Nat) :
    (squeezeOut n s).Inv := by
  obtain ⟨hrate, hbuflen, hcur⟩ := hinv.squeezing hctxv hfin
  exact State.inv_of_squeezing (by simp [hctxv]) (by simp [hfin]) (by simp [hbuflen])
    (squeezeBytes_ok ⟨hrate, hcur⟩ n)

/-- Every command keeps INV. -/
theorem exec_keeps_inv {i : Instr} {s t : State} (hinv : s.Inv) (h : exec i s = .next t) : t.Inv := by
  rcases exec_next_cases h with ⟨_, _, rfl⟩ | ⟨_, d, _, hr, rfl⟩ | ⟨_, _, _, hctxv, _, hfin, rfl⟩ |
    ⟨_, _, _, hctxv, _, rfl⟩
  · exact hinv
  · exact State.freshContext_inv hr d s
  · exact absorbBytes_inv hinv hctxv hfin _
  · exact squeezeOut_inv (ensureFinal_inv hinv hctxv) (by simp [hctxv]) (by simp) _

/-- A completion keeps INV. -/
theorem complete_keeps_inv {s t : State} (hinv : s.Inv) (h : complete s = .next t) : t.Inv := by
  rcases complete_next_cases h with ⟨_, _, _, rfl⟩ | ⟨_, u, _, hexec, rfl⟩
  · exact hinv
  · have hu : u.Inv := exec_keeps_inv hinv hexec
    exact hu

theorem resetEdge_inv (s : State) : (resetEdge s).Inv := Or.inl ⟨rfl, rfl, rfl, rfl, rfl⟩

/-- Settles O47: for the registers INV names, a step is nothing, a reset edge, or a completion, and each keeps INV. -/
theorem invKept : Obligations.InvKept := by
  intro s t hinv h
  rcases step_command h with heq | ⟨_, _, rfl⟩ | ⟨_, hcomplete⟩
  · exact heq.inv hinv
  · exact resetEdge_inv _
  · exact complete_keeps_inv (s := s.nextTurn) hinv hcomplete

/-! ### Safe states -/

/-- INVARIANT shares its code with no other cause (60_exceptions.md R201). -/
theorem causeCode_ne_invariant {c : Cause} (h : c ≠ .invariant) : causeCode c ≠ causeCode .invariant := by
  revert h
  cases c <;> simp [causeCode]

/-- A failure other than INVARIANT leaves a safe state where INV holds. -/
theorem State.raise_safe {s : State} {c : Cause} (hc : c ≠ .invariant) (hinv : s.Inv) : Safety.Safe (s.raise c) :=
  ⟨hinv, Or.inr ⟨c, rfl, rfl, rfl⟩, causeCode_ne_invariant hc⟩

/-- A success leaves a safe state where INV holds. -/
theorem State.succeed_safe {s : State} (hinv : s.Inv) : Safety.Safe s.succeed :=
  ⟨hinv, Or.inl ⟨rfl, rfl⟩, by simp [Safety.NoInvariantReport, causeCode]⟩

/-- A command that answers a next state from INV leaves a safe state, whatever ERR and ECAUSE were. -/
theorem exec_safe {i : Instr} {s t : State} (hinv : s.Inv) (h : exec i s = .next t) : Safety.Safe t := by
  have hinv' := exec_keeps_inv hinv h
  rcases exec_next_cases h with ⟨_, hc, rfl⟩ | ⟨_, _, _, _, rfl⟩ | ⟨_, _, _, _, _, _, rfl⟩ | ⟨_, _, _, _, _, rfl⟩
  · exact State.raise_safe hc hinv
  all_goals exact State.succeed_safe hinv'

/-- A completion from INV leaves a safe state. -/
theorem complete_safe {s t : State} (hinv : s.Inv) (h : complete s = .next t) : Safety.Safe t := by
  rcases complete_next_cases h with ⟨c, hc, _, rfl⟩ | ⟨_, u, _, hexec, rfl⟩
  · have hne : c ≠ .invariant := by rcases hc with rfl | rfl <;> decide
    exact State.raise_safe hne hinv
  · have hu : Safety.Safe u := exec_safe hinv hexec
    exact hu

/-- Being safe is about registers that a command writes only. -/
theorem CommandEq.safe {s t : State} (h : CommandEq s t) (hsafe : Safety.Safe s) : Safety.Safe t := by
  obtain ⟨hinv, hlegal, hreport⟩ := hsafe
  refine ⟨h.inv hinv, ?_⟩
  obtain ⟨_, _, _, _, _, _, _, _, _, herr, hecause, hsticky⟩ := h
  rw [Safety.StatusLegal, Safety.NoInvariantReport, herr, hecause, hsticky]
  exact ⟨hlegal, hreport⟩

/-- A reset edge leaves a safe state. -/
theorem resetEdge_safe (s : State) : Safety.Safe (resetEdge s) :=
  ⟨resetEdge_inv s, Or.inl ⟨rfl, rfl⟩, by simp [Safety.NoInvariantReport, resetEdge, State.reset, causeCode]⟩

/-- Every step from a safe state leads to a safe state. -/
theorem step_keeps_safe {s t : State} (hsafe : Safety.Safe s) (h : step s = .next t) : Safety.Safe t := by
  rcases step_command h with heq | ⟨_, _, rfl⟩ | ⟨_, hcomplete⟩
  · exact heq.safe hsafe
  · exact resetEdge_safe _
  · exact complete_safe (s := s.nextTurn) hsafe.1 hcomplete

/-- The host's step never reports INVARIANT: its one fault is the access across reset. -/
theorem hostStep_ne_invariantFailed (s r : State) : hostStep s ≠ .fault (.invariantFailed r) := by
  unfold hostStep
  split
  · split <;> simp
  · split <;> simp

/-- From INV every completion answers a next state. -/
theorem complete_next {s : State} (hinv : s.Inv) : ∃ t, complete s = .next t := by
  rcases complete_cases s with ⟨_, _, _, h⟩ | ⟨_, _, _, _, h⟩ | ⟨_, hout, _⟩
  · exact ⟨_, h⟩
  · exact ⟨_, h⟩
  · exact absurd hinv hout

/-- From INV no step ends in the INVARIANT fault. -/
theorem step_ne_invariantFailed {s : State} (hinv : s.Inv) (r : State) : step s ≠ .fault (.invariantFailed r) := by
  unfold step
  split
  · exact hostStep_ne_invariantFailed _ r
  · split
    · obtain ⟨t, ht⟩ := complete_next (s := s.nextTurn) hinv
      simp [ht]
    · simp

/-- Settles O49: a completion from INV reports no INVARIANT, and the other steps write no status. -/
theorem safeKept : Obligations.SafeKept :=
  fun _ hsafe => ⟨fun _ => step_keeps_safe hsafe, step_ne_invariantFailed hsafe.1⟩

/-- The state after reset is safe with any events still to come. -/
theorem reset_inputs_safe (inputs : List HostEvent) : Safety.Safe { State.reset with inputs := inputs } :=
  resetEdge_safe { State.reset with inputs := inputs }

/-- Settles O50: the reset state is one that a reset edge leaves. -/
theorem resetSafe : Obligations.ResetSafe := reset_inputs_safe []

/-- Every reachable state is safe. -/
theorem reachable_safe {s : State} (h : Safety.Reachable s) : Safety.Safe s := by
  induction h with
  | start inputs => exact reset_inputs_safe inputs
  | step _ hstep ih => exact step_keeps_safe ih hstep

/-- Settles O51, by induction on the run from reset. -/
theorem reachableSafe : Obligations.ReachableSafe :=
  fun _ h => ⟨reachable_safe h, step_ne_invariantFailed (reachable_safe h).1⟩

end Sys2Proof.Machine
end

section
/-! PROOFS. The registers of the context and DOUT: what each command makes of them, and so which step can change them
(10_state.md section 1). They settle O52, O53, O54 and O55. -/

namespace Sys2Proof.Machine

/-- From s to t the context's parameters, FIN and DOUT stay, and STICKY does not fall. -/
structure ContextStays (s t : State) : Prop where
  rate : t.rate = s.rate
  dsep : t.dsep = s.dsep
  ctxv : t.ctxv = s.ctxv
  fin : t.fin = s.fin
  dout : t.dout = s.dout
  sticky : s.sticky = true → t.sticky = true

/-- From s to t an INIT of rate r and separation byte d has succeeded (45_context.md R180). -/
structure ContextStarts (r d : BitVec 8) (s t : State) : Prop where
  legal : RateLegal r
  rate : t.rate = r
  dsep : t.dsep = d
  ctxv : t.ctxv = true
  fin : t.fin = false
  dout : t.dout = 0
  err : t.err = 0
  sticky : t.sticky = s.sticky

/-- From s to t a SQUEEZE has succeeded, for the context's parameters, FIN and STICKY (44_squeeze.md R162). -/
structure ContextSqueezes (s t : State) : Prop where
  rate : t.rate = s.rate
  dsep : t.dsep = s.dsep
  ctxv : t.ctxv = s.ctxv
  fin : t.fin = true
  err : t.err = 0
  sticky : t.sticky = s.sticky

theorem State.raise_contextStays (c : Cause) (s : State) : ContextStays s (s.raise c) :=
  ⟨rfl, rfl, rfl, rfl, rfl, fun _ => rfl⟩

theorem absorbBytes_contextStays (s : State) (m : List Byte) : ContextStays s (absorbBytes s m).succeed := by
  constructor <;> simp

theorem State.freshContext_contextStarts {r : BitVec 8} (hr : RateLegal r) (d : BitVec 8) (s : State) :
    ContextStarts r d s (s.freshContext r d).succeed :=
  ⟨hr, rfl, rfl, rfl, rfl, rfl, rfl, rfl⟩

theorem squeezeOut_contextSqueezes (n : Nat) (s : State) :
    ContextSqueezes s (squeezeOut n (ensureFinal s)).succeed := by
  constructor <;> simp

/-- A command that answers a next state leaves the context's registers, or is an INIT or a SQUEEZE that succeeded. -/
theorem exec_context_cases {i : Instr} {s t : State} (h : exec i s = .next t) :
    ContextStays s t ∨ (∃ r d, i = .init r d ∧ ContextStarts r d s t) ∨
      (∃ n, i = .squeeze n ∧ ContextSqueezes s t) := by
  rcases exec_next_cases h with ⟨c, _, rfl⟩ | ⟨r, d, hi, hr, rfl⟩ | ⟨_, _, _, _, _, _, rfl⟩ | ⟨n, hi, _, _, _, rfl⟩
  · exact Or.inl (State.raise_contextStays c s)
  · exact Or.inr (Or.inl ⟨r, d, hi, State.freshContext_contextStarts hr d s⟩)
  · exact Or.inl (absorbBytes_contextStays s _)
  · exact Or.inr (Or.inr ⟨n, hi, squeezeOut_contextSqueezes _ s⟩)

/-- For the context's registers a step is nothing, a reset edge, a completed INIT, or a completed SQUEEZE. -/
theorem step_context_cases {s t : State} (h : step s = .next t) :
    ContextStays s t ∨
    (s.inputs.head? = some .rst ∧ s.held = none ∧ t = resetEdge s.nextTurn.dropInput) ∨
    (s.busy = true ∧ t.busy = false ∧ ∃ r d, decode s.pcmd = .ok (.init r d) ∧ ContextStarts r d s t) ∨
    (s.busy = true ∧ t.busy = false ∧ ∃ n, decode s.pcmd = .ok (.squeeze n) ∧ ContextSqueezes s t) := by
  rcases step_command h with heq | hrst | ⟨hbusy, hcomplete⟩
  · obtain ⟨_, hrate, hdsep, hctxv, _, _, hfin, _, hdout, _, _, hsticky⟩ := heq
    exact Or.inl ⟨hrate, hdsep, hctxv, hfin, hdout, hsticky.trans⟩
  · exact Or.inr (Or.inl hrst)
  · rcases complete_next_cases hcomplete with ⟨c, _, _, rfl⟩ | ⟨i, u, hdecode, hexec, rfl⟩
    · exact Or.inl { State.raise_contextStays c s with }
    · rcases exec_context_cases hexec with hstays | ⟨r, d, rfl, hstarts⟩ | ⟨n, rfl, hsqueezes⟩
      · exact Or.inl { hstays with }
      · exact Or.inr (Or.inr (Or.inl ⟨hbusy, rfl, r, d, hdecode, { hstarts with }⟩))
      · exact Or.inr (Or.inr (Or.inr ⟨hbusy, rfl, n, hdecode, { hsqueezes with }⟩))

/-- Settles O52: nothing but a reset edge lets STICKY or CTXV fall. -/
theorem onlyResetClears : Obligations.OnlyResetClears := by
  intro s t h hcleared
  rcases step_context_cases h with hstays | ⟨hrst, hheld, _⟩ | ⟨_, _, _, _, _, hstarts⟩ | ⟨_, _, _, _, hsqueezes⟩
  · rcases hcleared with ⟨hset, hclear⟩ | ⟨hset, hclear⟩
    · simp [hstays.sticky hset] at hclear
    · simp [hstays.ctxv, hset] at hclear
  · exact ⟨hrst, hheld⟩
  · simp [hstarts.sticky, hstarts.ctxv] at hcleared
  · simp [hsqueezes.sticky, hsqueezes.ctxv] at hcleared

/-- Settles O53: an ABSORB, a SQUEEZE and a failure leave RATE and DSEP. -/
theorem contextFixed : Obligations.ContextFixed := by
  intro s t h hchanged
  rcases step_context_cases h with hstays | ⟨hrst, _, rfl⟩ | ⟨hbusy, hdone, r, d, hdecode, hstarts⟩ |
    ⟨_, _, _, _, hsqueezes⟩
  · simp [hstays.rate, hstays.dsep] at hchanged
  · exact Or.inl ⟨hrst, rfl, rfl⟩
  · obtain ⟨hlow, hhigh⟩ := hstarts.legal
    rw [hstarts.rate, hstarts.dsep]
    exact Or.inr ⟨hbusy, hdone, hdecode, hlow, hhigh⟩
  · simp [hsqueezes.rate, hsqueezes.dsep] at hchanged

/-- Settles O54: a SQUEEZE leaves FIN at 1, an INIT and a reset edge leave it at 0, and nothing else writes it. -/
theorem finalizedOneWay : Obligations.FinalizedOneWay := by
  intro s t h
  rcases step_context_cases h with hstays | ⟨hrst, _, rfl⟩ | ⟨hbusy, _, r, d, hdecode, hstarts⟩ |
    ⟨hbusy, _, n, hdecode, hsqueezes⟩
  · exact ⟨fun hclear hset => by simp [hstays.fin, hclear] at hset,
      fun hset hclear => by simp [hstays.fin, hset] at hclear⟩
  · exact ⟨fun _ hset => by simp [resetEdge, State.reset] at hset, fun _ _ => Or.inl hrst⟩
  · exact ⟨fun _ hset => by simp [hstarts.fin] at hset, fun _ _ => Or.inr ⟨hbusy, r, d, hdecode⟩⟩
  · exact ⟨fun _ _ => ⟨hbusy, n, hdecode⟩, fun _ hcleared => by simp [hsqueezes.fin] at hcleared⟩

/-- Settles O55: an ABSORB and a failure leave DOUT, and an INIT and a reset edge make it 0. -/
theorem doutWriters : Obligations.DoutWriters := by
  intro s t h hchanged
  rcases step_context_cases h with hstays | ⟨hrst, _, rfl⟩ | ⟨hbusy, _, r, d, hdecode, hstarts⟩ |
    ⟨hbusy, _, n, hdecode, hsqueezes⟩
  · exact absurd hstays.dout hchanged
  · exact Or.inr ⟨rfl, Or.inl hrst⟩
  · exact Or.inr ⟨hstarts.dout, Or.inr ⟨hbusy, hstarts.err, r, d, hdecode⟩⟩
  · exact Or.inl ⟨hbusy, hsqueezes.err, n, hdecode⟩

end Sys2Proof.Machine
end

section
/-! PROOFS. State bytes: what XorStateByte, XorBlock and an output without a refill make of them
(42_lane_codec.md R120, R121; 44_squeeze.md R163). They settle O30 and O24. -/

namespace Sys2Proof.Machine

/-- The bits of a byte moved to byte place m of a lane, read at byte place k. -/
theorem getLsbD_setWidth_shiftLeft_byte (b : Byte) {m k i : Nat} (hk : k < 8) (hi : i < 8) :
    (b.setWidth 64 <<< (8 * m)).getLsbD (8 * k + i) = (decide (k = m) && b.getLsbD i) := by
  rcases lt_trichotomy k m with hlt | rfl | hgt
  · have hbelow : 8 * k + i < 8 * m := by omega
    simp [hbelow, hlt.ne]
  · have hlane : 8 * k + i < 64 := by omega
    simp [hlane]
  · have habove : 8 ≤ 8 * k + i - 8 * m := by omega
    simp [BitVec.getLsbD_of_ge b _ habove, hgt.ne']

/-- XorStateByte(j, b) writes state byte j only, by XOR (42_lane_codec.md R121). -/
theorem stateByte_xorByteInto (a : Lanes) (b : Byte) {j k : Nat} (hj : j < 200) :
    stateByte (xorByteInto a j b) k = if k = j then stateByte a j ^^^ b else stateByte a k := by
  apply BitVec.eq_of_getLsbD_eq
  intro i hi
  have hlane : j / 8 < 25 := by omega
  have hplace : k % 8 < 8 := Nat.mod_lt k (by decide)
  rw [getLsbD_stateByte _ _ _ hi, xorByteInto, laneAt_setLane hlane]
  by_cases hsame : k / 8 = j / 8
  · rw [if_pos hsame, BitVec.getLsbD_xor, getLsbD_setWidth_shiftLeft_byte b hplace hi]
    by_cases hkj : k = j
    · simp [hkj, getLsbD_stateByte _ _ _ hi]
    · have hmod : k % 8 ≠ j % 8 := by omega
      simp [hkj, hmod, hsame, getLsbD_stateByte _ _ _ hi]
  · have hkj : k ≠ j := fun h => hsame (h ▸ rfl)
    simp [hsame, hkj, getLsbD_stateByte _ _ _ hi]

/-- Settles O30, by induction on n: byte n is the one that XorBlock(n + 1) writes and XorBlock(n) leaves. -/
theorem xorBlockBytes : Obligations.XorBlockBytes := by
  intro a buf n j hn hj
  induction n with
  | zero => rfl
  | succ n ih =>
    have ih := ih (by omega)
    rw [xorBlockInto_succ, stateByte_xorByteInto _ _ (by omega)]
    rcases lt_trichotomy j n with hlt | rfl | hgt
    · rw [if_neg hlt.ne, ih, if_pos hlt, if_pos (by omega)]
    · rw [if_pos rfl, ih, if_neg (lt_irrefl _), if_pos (Nat.lt_succ_self _)]
    · rw [if_neg hgt.ne', ih, if_neg (by omega), if_neg (by omega)]

/-! ### Output from the rate region -/

/-- Below RATE, SqueezeByte() reads state byte CUR and moves CUR past it; the lanes stay. -/
theorem squeezeByte_of_lt {s : State} (hr : RateLegal s.rate) (hlt : s.cur.toNat < s.rate.toNat) :
    (squeezeByte s).1 = stateByte s.lanes s.cur.toNat ∧ (squeezeByte s).2.lanes = s.lanes ∧
      (squeezeByte s).2.cur.toNat = s.cur.toNat + 1 := by
  obtain ⟨hbyte, hlanes, hcur, _⟩ := squeezeByte_eq ⟨hr, hlt.le⟩
  rw [streamByte, Nat.div_eq_of_lt hlt, Nat.mod_eq_of_lt hlt] at hbyte
  rw [Nat.div_eq_of_lt hlt] at hlanes
  rw [Nat.mod_eq_of_lt hlt] at hcur
  exact ⟨hbyte, hlanes, hcur⟩

theorem readStateBytes_succ (a : Lanes) (src len : Nat) :
    readStateBytes a src (len + 1) = stateByte a src :: readStateBytes a (src + 1) len := by
  simp [readStateBytes, List.range_succ_eq_map, Nat.add_comm, Nat.add_left_comm]

/-- Reading state bytes looks at no other byte. -/
theorem readStateBytes_congr {a b : Lanes} {src len : Nat} (h : ∀ j < src + len, stateByte a j = stateByte b j) :
    readStateBytes a src len = readStateBytes b src len :=
  List.map_congr_left fun i hi => h (src + i) (Nat.add_lt_add_left (List.mem_range.mp hi) src)

/-- Output that ends within the rate region is state bytes CUR, CUR + 1, … (44_squeeze.md R163). -/
theorem squeezeBytes_of_fits {n : Nat} {s : State} (hr : RateLegal s.rate) (hfits : s.cur.toNat + n ≤ s.rate.toNat) :
    (squeezeBytes n s).1 = readStateBytes s.lanes s.cur.toNat n := by
  induction n generalizing s with
  | zero => rfl
  | succ n ih =>
    obtain ⟨hbyte, hlanes, hcur⟩ := squeezeByte_of_lt hr (by omega)
    have hrest := ih (s := (squeezeByte s).2) (by rwa [squeezeByte_rate]) (by rw [squeezeByte_rate, hcur]; omega)
    rw [squeezeBytes, hrest, hbyte, hlanes, hcur, readStateBytes_succ]

/-- DOUT after a SQUEEZE that needs no refill: the state bytes from CUR on, packed. -/
theorem exec_squeeze_dout_of_fits {n : BitVec 4} {s t : State} (hn : n.toNat ≤ 8) (hctxv : s.ctxv = true)
    (hinv : s.Inv) (hfin : s.fin = true) (hfits : s.cur.toNat + n.toNat ≤ s.rate.toNat)
    (h : exec (.squeeze n) s = .next t) : t.dout = packBytes (readStateBytes s.lanes s.cur.toNat n.toNat) := by
  rw [exec_squeeze_ok hn hctxv hinv, ensureFinal_of_fin hfin] at h
  obtain rfl := Host.Outcome.next.inj h
  exact congrArg packBytes (squeezeBytes_of_fits (hinv.rateLegal hctxv) hfits)

/-- Settles O24: without a refill DOUT is read from the rate region, where the two engines agree. -/
theorem squeezeHidesCapacity : Obligations.SqueezeHidesCapacity := by
  intro n s₁ s₂ t₁ t₂ hctxv₁ hctxv₂ hinv₁ hinv₂ hfin₁ hfin₂ hrate hcur hn hfits hagree h₁ h₂
  have hfits₂ : s₂.cur.toNat + n.toNat ≤ s₂.rate.toNat := by rwa [← hrate, ← hcur]
  rw [exec_squeeze_dout_of_fits hn hctxv₁ hinv₁ hfin₁ hfits h₁,
    exec_squeeze_dout_of_fits hn hctxv₂ hinv₂ hfin₂ hfits₂ h₂, ← hcur,
    readStateBytes_congr fun j hj => hagree j (hj.trans_le hfits)]

end Sys2Proof.Machine
end

section
/-! PROOFS. The STATUS word, the values reset leaves, the reset edge, and the usage errors. They settle O42, O56, O57
and O36. -/

namespace Sys2Proof.Machine

/-- A 1-bit field is a placed field. -/
theorem flagBit_eq_placedField (b : Bool) {k : Nat} : flagBit b k = placedField (BitVec.ofBool b) k := by
  cases b <;> simp [flagBit, placedField]

/-- The STATUS word is its eight fields, each placed at its bit (10_state.md R22). -/
theorem State.statusWord_eq_placedFields (s : State) :
    s.statusWord = placedField (BitVec.ofBool s.busy) 0 ||| placedField (BitVec.ofBool s.ctxv) 1 |||
      placedField (BitVec.ofBool s.fin) 2 ||| placedField (BitVec.ofBool s.sticky) 3 |||
      placedField s.err 4 ||| placedField s.ecause 8 ||| placedField s.buflen 16 ||| placedField s.cur 24 := by
  simp only [State.statusWord, flagBit_eq_placedField]
  rfl

/-- Settles O42: each range of bits of STATUS meets one placed field, or none. -/
theorem statusFields : Obligations.StatusFields := by
  intro s
  rw [s.statusWord_eq_placedFields]
  simp only [BitVec.getLsbD_or, getLsbD_placedField, BitVec.extractLsb'_or]
  simp [extractLsb'_placedField_same, extractLsb'_placedField_apart]

/-- The CONFIG word of an engine with no context: the two constants and P_RPC (10_state.md R23). -/
theorem configWordFor_zero (r : RoundsPerCycle) :
    configWordFor r.toNat 0 0 = (12#64 <<< 16) ||| (12#64 <<< 24) ||| (BitVec.ofNat 64 r.toNat <<< 32) := by
  cases r <;> decide

/-- Settles O56: the lanes and the buffer are replicated zeros, and CONFIG holds no context's fields. -/
theorem resetValues : Obligations.ResetValues := by
  have hlanes : ∀ i < 25, laneAt State.reset.lanes i = 0 := fun i hi => by simp [laneAt, State.reset, hi]
  have hbuf : ∀ i < 199, bufAt State.reset.buf i = 0 := fun i hi => by simp [bufAt, State.reset, hi]
  exact ⟨hlanes, hbuf, rfl, rfl, rfl, rfl, rfl, rfl, rfl, rfl, rfl, rfl, rfl, rfl, rfl, rfl, by decide,
    configWordFor_zero Config.rpc⟩

/-- Where the host can move, it does, or with BUSY = 1 the engine completes first (70_reset_and_hazards.md R224). -/
theorem step_of_hostReady {s : State} (h : hostReady s = true) :
    step s = hostStep s.nextTurn ∨ (s.busy = true ∧ step s = complete s.nextTurn) := by
  unfold step
  by_cases hmoves : hostMoves s = true
  · exact Or.inl (if_pos hmoves)
  · have hbusy : s.busy = true := by
      by_contra hidle
      simp [hostMoves, h, hidle] at hmoves
    rw [if_neg hmoves, if_pos hbusy]
    exact Or.inr ⟨hbusy, rfl⟩

/-- A host with `rst` next and no write held can move. -/
theorem hostReady_of_rst {s : State} {rest : List HostEvent} (hinputs : s.inputs = .rst :: rest)
    (hheld : s.held = none) : hostReady s = true := by
  simp [hostReady, hinputs, hheld]

/-- With `rst` next and no write held, the host's step is the reset edge (70_reset_and_hazards.md R221). -/
theorem hostStep_of_rst {s : State} {rest : List HostEvent} (hinputs : s.inputs = .rst :: rest)
    (hheld : s.held = none) : hostStep s = .next (resetEdge s.dropInput) := by
  simp [hostStep, hinputs, hheld, takeEvent]

/-- Settles O57: the host's step is the edge, and only a completion can come before it. -/
theorem resetEdge_abandons_pending : Obligations.ResetEdge := by
  intro s rest hinputs hheld
  refine ⟨?_, step_of_hostReady (hostReady_of_rst hinputs hheld)⟩
  rw [hostStep_of_rst (s := s.nextTurn) hinputs hheld]
  simp [resetEdge, State.dropInput, hinputs]

/-- Without a context, ABSORB and SQUEEZE of a legal length fail with NO_CONTEXT (10_state.md R15). -/
theorem failure_noContext {n : BitVec 4} {s : State} (hn : n.toNat ≤ 8) (hctxv : s.ctxv = false) :
    absorbFailure n s = some .noContext ∧ squeezeFailure n s = some .noContext := by
  have hlegal : decide (¬LengthLegal n) = false := decide_eq_false (not_not.mpr hn)
  simp only [absorbFailure, squeezeFailure, firstFailing, hlegal, hctxv]
  exact ⟨rfl, rfl⟩

/-- On a finalized context, ABSORB of a legal length fails with ABSORB_AFTER_FINAL (43_absorb.md R140). -/
theorem absorbFailure_absorbAfterFinal {n : BitVec 4} {s : State} (hn : n.toNat ≤ 8) (hctxv : s.ctxv = true)
    (hinv : s.Inv) (hfin : s.fin = true) : absorbFailure n s = some .absorbAfterFinal := by
  have hlegal : decide (¬LengthLegal n) = false := decide_eq_false (not_not.mpr hn)
  have hinside : decide (¬s.Inv) = false := decide_eq_false (not_not.mpr hinv)
  simp only [absorbFailure, firstFailing, hlegal, hinside, hctxv, hfin]
  rfl

/-- Settles O36: each first failing check is raised, and raising it writes ERR, ECAUSE and STICKY only. -/
theorem usageErrors : Obligations.UsageErrors := by
  intro n s hn
  refine ⟨fun hctxv => ?_, fun hctxv hinv hfin => ?_⟩
  · obtain ⟨habsorb, hsqueeze⟩ := failure_noContext hn hctxv
    simp only [exec, execAbsorb, execSqueeze, habsorb, hsqueeze]
    exact ⟨rfl, rfl⟩
  · simp only [exec, execAbsorb, absorbFailure_absorbAfterFinal hn hctxv hinv hfin]
    rfl

end Sys2Proof.Machine
end

section
/-! PROOFS. Packing bytes into a 64-bit value and unpacking them, byte by byte (42_lane_codec.md R123, R124;
20_memory.md R49). They settle O33. -/

namespace Sys2Proof.Machine

theorem getLsbD_byteOf (v : Word) (k : Nat) {i : Nat} (hi : i < 8) :
    (byteOf v k).getLsbD i = v.getLsbD (8 * k + i) := by
  simp [byteOf, hi]

/-- Two 64-bit values with the same eight bytes are equal. -/
theorem eq_of_byteOf_eq {v w : Word} (h : ∀ k < 8, byteOf v k = byteOf w k) : v = w := by
  apply BitVec.eq_of_getLsbD_eq
  intro j hj
  have hplace : j % 8 < 8 := Nat.mod_lt j (by decide)
  rw [← Nat.div_add_mod j 8, ← getLsbD_byteOf v _ hplace, ← getLsbD_byteOf w _ hplace, h (j / 8) (by omega)]

/-- The first byte packed is the lowest. -/
theorem byteOf_packBytes_cons_zero (b : Byte) (bs : List Byte) : byteOf (packBytes (b :: bs)) 0 = b := by
  apply BitVec.eq_of_getLsbD_eq
  intro i hi
  have hlane : i < 64 := by omega
  rw [getLsbD_byteOf _ _ hi]
  simp [packBytes, hi, hlane]

/-- The other bytes packed stand one place higher, as far as the value has places. -/
theorem byteOf_packBytes_cons_succ (b : Byte) (bs : List Byte) {k : Nat} (hk : k + 1 < 8) :
    byteOf (packBytes (b :: bs)) (k + 1) = byteOf (packBytes bs) k := by
  apply BitVec.eq_of_getLsbD_eq
  intro i hi
  have hlane : 8 * k + i + 8 < 64 := by omega
  have hbelow : 8 * k + i < 64 := by omega
  rw [getLsbD_byteOf _ _ hi, getLsbD_byteOf _ _ hi, show 8 * (k + 1) + i = 8 * k + i + 8 by omega]
  simp [packBytes, hlane, BitVec.getLsbD_eq_getElem hbelow]

/-- Byte k of packed bytes is the k-th of them, and 0 past the last (42_lane_codec.md R124). -/
theorem byteOf_packBytes (bytes : List Byte) {k : Nat} (hk : k < 8) :
    byteOf (packBytes bytes) k = bytes.getD k 0 := by
  induction bytes generalizing k with
  | nil => simp [packBytes, byteOf]
  | cons b bs ih =>
    cases k with
    | zero => exact byteOf_packBytes_cons_zero b bs
    | succ k => rw [byteOf_packBytes_cons_succ b bs hk, ih (by omega), List.getD_cons_succ]

/-- Byte k of the message is byte k of PDIN (42_lane_codec.md R123). -/
theorem messageBytes_getD (v : Word) {n k : Nat} (hk : k < n) : (messageBytes v n).getD k 0 = byteOf v k := by
  simp [messageBytes, hk]

/-- Settles O33: the packed value and the bytes agree byte by byte, and eight bytes determine a 64-bit value. -/
theorem packedBytes : Obligations.PackedBytes :=
  ⟨fun bytes _ _ hk => byteOf_packBytes bytes hk,
    fun v => eq_of_byteOf_eq fun _ hk => (byteOf_packBytes _ hk).trans (messageBytes_getD v hk)⟩

end Sys2Proof.Machine
end

section
/-! PROOFS. Accesses to the register window: what a read, a write and a refused access answer (20_memory.md R42 to
R48). They settle O37, O38 and O39. -/

namespace Sys2Proof.Machine

@[simp] theorem regAt_regOffset (r : Reg) : regAt (regOffset r) = some r := by
  cases r <;> decide

theorem supported_regOffset (r : Reg) : Supported (regOffset r) .b8 := by
  cases r <;> decide

/-- An 8-byte read of a register is granted with its value (20_memory.md R45, R48). -/
theorem windowAccess_read (r : Reg) (s : State) :
    windowAccess (regOffset r) .b8 .read s = grantAccess (regOffset r) .read (s.readReg r) s := by
  simp only [windowAccess, if_pos (supported_regOffset r), regAt_regOffset]

/-- An 8-byte write to a register is the register's own write rule (20_memory.md R44, R46, R47). -/
theorem windowAccess_write (r : Reg) (v : Word) (s : State) :
    windowAccess (regOffset r) .b8 (.write v) s = writeReg r v s := by
  simp only [windowAccess, if_pos (supported_regOffset r), regAt_regOffset]

/-- An access of another size or off the multiples of 8 is refused (20_memory.md R42). -/
theorem windowAccess_of_not_supported {off : BitVec 6} {size : AccessSize} (h : ¬Supported off size) (op : AccessOp)
    (s : State) : windowAccess off size op s = refuseAccess off op s := if_neg h

/-- An access at a reserved offset is refused, of whatever size (20_memory.md R43). -/
theorem windowAccess_of_reserved {off : BitVec 6} (h : regAt off = none) (size : AccessSize) (op : AccessOp)
    (s : State) : windowAccess off size op s = refuseAccess off op s := by
  simp [windowAccess, h]

/-- DOUT, STATUS and CONFIG are read-only: a write to one of them is refused, of whatever size (20_memory.md R44). -/
theorem windowAccess_write_readOnly {r : Reg} (hcmd : r ≠ .cmd) (hdin : r ≠ .din) (size : AccessSize) (v : Word)
    (s : State) : windowAccess (regOffset r) size (.write v) s = refuseAccess (regOffset r) (.write v) s := by
  by_cases hsize : size = .b8
  · subst hsize
    rw [windowAccess_write]
    cases r with
    | cmd => exact absurd rfl hcmd
    | din => exact absurd rfl hdin
    | dout => rfl
    | status => rfl
    | config => rfl
  · exact windowAccess_of_not_supported (fun h => hsize h.1) _ s

/-- Settles O37: each way to be refused, with SLVERR and data 0 as the one outcome. -/
theorem refusedAccesses : Obligations.RefusedAccesses := by
  intro off size op s hrefused
  change windowAccess off size op s = refuseAccess off op s
  rcases hrefused with hsize | hoff | rfl | rfl | rfl | ⟨hreg, hop⟩
  · exact windowAccess_of_not_supported (fun h => hsize h.1) op s
  · exact windowAccess_of_not_supported (fun h => hoff h.2) op s
  · exact windowAccess_of_reserved (by decide) size op s
  · exact windowAccess_of_reserved (by decide) size op s
  · exact windowAccess_of_reserved (by decide) size op s
  · cases op with
    | read => exact absurd rfl hop
    | write v =>
      rcases hreg with rfl | rfl | rfl
      · exact windowAccess_write_readOnly (r := .dout) (by decide) (by decide) size v s
      · exact windowAccess_write_readOnly (r := .status) (by decide) (by decide) size v s
      · exact windowAccess_write_readOnly (r := .config) (by decide) (by decide) size v s

/-- Settles O38: the read of each register is granted with its value. -/
theorem readsAnswer : Obligations.ReadsAnswer := fun s =>
  ⟨windowAccess_read .cmd s, windowAccess_read .din s, windowAccess_read .dout s, windowAccess_read .status s,
    windowAccess_read .config s⟩

/-- Settles O39: DIN's write rule does not look at BUSY. -/
theorem dinWrite : Obligations.DinWrite := fun v s => windowAccess_write .din v s

end Sys2Proof.Machine
end

section
/-! PROOFS. The host beside a running command: which agent moves, what the host changes while BUSY = 1, and a held CMD
write (20_memory.md R46; 70_reset_and_hazards.md R221, R224, R229, R230). They settle O44, O7, O40 and O60. -/

namespace Sys2Proof.Machine

/-! ### The host while BUSY = 1 -/

/-- While BUSY = 1 an event other than `rst` changes DIN and the bus port only. -/
theorem takeEvent_frame_of_busy {e : HostEvent} {s : State} (hbusy : s.busy = true) (he : e ≠ .rst) :
    takeEvent e s = { s with din := (takeEvent e s).din, held := (takeEvent e s).held,
                             answers := (takeEvent e s).answers } := by
  rcases takeEvent_cases e s with ⟨hrst, _⟩ | ⟨_, h⟩ | ⟨_, _, h⟩ | ⟨_, _, _, h⟩ | ⟨_, _, hidle, _⟩ | ⟨_, _, _, h⟩
  · exact absurd hrst he
  · rw [h]
  · rw [h]; rfl
  · rw [h]; rfl
  · simp [hbusy] at hidle
  · rw [h]

/-- What the host does where a CMD write is held: acceptance with BUSY = 0, else the fault (20_memory.md R46). -/
theorem hostStep_of_held {w : Word} {s : State} (hheld : s.held = some w) :
    hostStep s = if s.busy then .fault .accessAcrossReset else .next (acceptCmd w s) := by
  simp only [hostStep, hheld]

/-- With no write held, the host's step takes its next event, if it has one. -/
theorem hostStep_of_not_held {s : State} (hheld : s.held = none) :
    (s.inputs = [] ∧ hostStep s = .next s) ∨
      ∃ e rest, s.inputs = e :: rest ∧ hostStep s = .next (takeEvent e s.dropInput) := by
  cases hinputs : s.inputs with
  | nil => exact Or.inl ⟨rfl, by simp only [hostStep, hheld, hinputs]⟩
  | cons e rest => exact Or.inr ⟨e, rest, rfl, by simp only [hostStep, hheld, hinputs]⟩

/-- Settles O44: with BUSY = 1 a held write lets the host do nothing, and no event but `rst` writes a register of a
command. -/
theorem busyHidesCommand : Obligations.BusyHidesCommand := by
  intro s t hbusy hnotRst h
  cases hheld : s.held with
  | some w =>
    rw [hostStep_of_held (s := s.nextTurn) hheld, if_pos (show s.nextTurn.busy = true from hbusy)] at h
    cases h
  | none =>
    rcases hostStep_of_not_held (s := s.nextTurn) hheld with ⟨hinputs, hstep⟩ | ⟨e, rest, hinputs, hstep⟩
    · obtain rfl := Host.Outcome.next.inj (hstep.symm.trans h)
      rw [State.nextTurn_inputs] at hinputs
      simp [State.nextTurn, hinputs]
    · obtain rfl := Host.Outcome.next.inj (hstep.symm.trans h)
      rw [State.nextTurn_inputs] at hinputs
      have he : e ≠ .rst := by rintro rfl; exact hnotRst (by rw [hinputs]; rfl)
      exact takeEvent_frame_of_busy (s := s.nextTurn.dropInput) hbusy he

/-! ### Which agent moves -/

/-- Where the host cannot move, the engine completes its command, or keeps its state (notes/assumptions/15.md). -/
theorem step_of_not_hostReady {s : State} (h : hostReady s = false) :
    step s = if s.busy then complete s.nextTurn else .next s := by
  simp [step, hostMoves, h]

/-- With BUSY = 0 only the host can move. -/
theorem step_of_idle {s : State} (hready : hostReady s = true) (hidle : s.busy = false) :
    step s = hostStep s.nextTurn := by
  rcases step_of_hostReady hready with h | ⟨hbusy, _⟩
  · exact h
  · simp [hidle] at hbusy

/-- Settles O7: by whether the host can move and by BUSY. -/
theorem agentsInterleave : Obligations.AgentsInterleave := by
  intro s
  refine ⟨fun hbusy hready => ?_, fun _ hready => ?_, fun hidle hready => step_of_idle hready hidle,
    fun hidle hready => ?_⟩
  · rw [step_of_not_hostReady hready, if_pos hbusy]
  · exact (step_of_hostReady hready).symm.imp_left And.right
  · rw [step_of_not_hostReady hready, hidle]
    rfl

/-! ### A held CMD write -/

/-- With a CMD write held, the host can move when BUSY = 0 or when `rst` comes over the write. -/
theorem hostReady_of_held {w : Word} {s : State} (hheld : s.held = some w) :
    hostReady s = true ↔ s.inputs.head? = some .rst ∨ s.busy = false := by
  rcases hinputs : s.inputs with _ | ⟨_ | _ | _, _⟩ <;> simp [hostReady, hheld, hinputs]

/-- With BUSY = 0 a held CMD write is accepted, whatever event stands behind it (20_memory.md R46). -/
theorem step_accepts_held {w : Word} {s : State} (hheld : s.held = some w) (hidle : s.busy = false) :
    step s = .next (acceptCmd w s.nextTurn) := by
  rw [step_of_idle ((hostReady_of_held hheld).mpr (Or.inr hidle)) hidle,
    hostStep_of_held (s := s.nextTurn) hheld, State.nextTurn_busy, hidle]
  rfl

@[simp] theorem ensureFinal_held (s : State) : (ensureFinal s).held = s.held := by rw [ensureFinal_frame]
@[simp] theorem squeezeOut_held (n : Nat) (s : State) : (squeezeOut n s).held = s.held := squeezeBytes_held n s

/-- No command touches a held write. -/
theorem exec_next_held {i : Instr} {s t : State} (h : exec i s = .next t) : t.held = s.held := by
  rcases exec_next_cases h with ⟨_, _, rfl⟩ | ⟨_, _, _, _, rfl⟩ | ⟨_, _, _, _, _, _, rfl⟩ | ⟨_, _, _, _, _, rfl⟩ <;> simp

/-- A completion leaves a held write held, and BUSY falls (70_reset_and_hazards.md R224). -/
theorem complete_next_held {s t : State} (h : complete s = .next t) : t.held = s.held ∧ t.busy = false := by
  rcases complete_next_cases h with ⟨_, _, _, rfl⟩ | ⟨_, _, _, hexec, rfl⟩
  · exact ⟨rfl, rfl⟩
  · exact ⟨(State.release_held _).trans (exec_next_held hexec), rfl⟩

/-- Settles O40: the write rule by BUSY, then the step of the host or of the engine over the held write. -/
theorem cmdWrite : Obligations.CmdWrite := by
  intro w s
  refine ⟨fun _ hidle => ?_, fun _ hbusy => ?_, fun hheld hidle _ => step_accepts_held hheld hidle,
    fun hheld hbusy hnotRst => ⟨?_, fun t hcomplete => ?_⟩⟩
  · exact (windowAccess_write .cmd w s).trans (if_neg (by simp [hidle]))
  · exact (windowAccess_write .cmd w s).trans (if_pos hbusy)
  · have hready : hostReady s = false := by
      rw [Bool.eq_false_iff, ne_eq, hostReady_of_held hheld]
      simp [hnotRst, hbusy]
    rw [step_of_not_hostReady hready, if_pos hbusy]
  · obtain ⟨hstays, hdone⟩ := complete_next_held hcomplete
    exact ⟨hstays.trans hheld, hdone⟩

/-- Settles O60: with BUSY = 0 the write is accepted; with BUSY = 1 the engine completes or the host's step faults. -/
theorem heldWriteAtReset : Obligations.HeldWriteAtReset := by
  intro w s hheld hrst
  refine ⟨fun hidle => step_accepts_held hheld hidle, fun hbusy => ?_⟩
  rcases step_of_hostReady ((hostReady_of_held hheld).mpr (Or.inl hrst)) with hhost | ⟨_, hcomplete⟩
  · rw [hhost, hostStep_of_held (s := s.nextTurn) hheld, if_pos (show s.nextTurn.busy = true from hbusy)]
    exact Or.inr rfl
  · exact Or.inl hcomplete

end Sys2Proof.Machine
end

section
/-! PROOFS. Command words: the decoder in terms of a word's fields, its inverse the encoder, the matches of the opcode
table, and the assembler's words (30_encoding.md R61 to R67). They settle O1, O2, O3 and O4. -/

namespace Sys2Proof

/-! ### Decoder and encoder through a word's fields -/

/-- A word of format I is a command exactly with no RSVD bit set (30_encoding.md R65). -/
theorem decodeI_eq_ok_iff (i : Instr) (w : Word) :
    decodeI w = .ok i ↔ reservedI w = 0 ∧ .init (rateField w) (dsepField w) = i := by
  unfold decodeI
  split_ifs with hreserved
  · simp [hreserved]
  · exact iff_of_false (by simp) fun h => hreserved h.1

/-- A word of format L is a command exactly with no RSVD bit set (30_encoding.md R65). -/
theorem decodeL_eq_ok_iff (mk : BitVec 4 → Instr) (i : Instr) (w : Word) :
    decodeL mk w = .ok i ↔ reservedL w = 0 ∧ mk (lengthField w) = i := by
  unfold decodeL
  split_ifs with hreserved
  · simp [hreserved]
  · exact iff_of_false (by simp) fun h => hreserved h.1

/-- A word is a command exactly when its OPC is one of the three and its format takes the rest of it
(30_encoding.md R64). -/
theorem decode_eq_ok_iff (i : Instr) (w : Word) :
    decode w = .ok i ↔
      (opcodeField w = 0x01 ∧ decodeI w = .ok i) ∨ (opcodeField w = 0x02 ∧ decodeL .absorb w = .ok i) ∨
        (opcodeField w = 0x03 ∧ decodeL .squeeze w = .ok i) := by
  unfold decode
  split_ifs with hinit habsorb hsqueeze
  · simp [hinit]
  · simp [habsorb]
  · simp [hsqueeze]
  · exact iff_of_false (by simp) (by tauto)

/-- The words of INIT (30_encoding.md R61). -/
theorem decode_eq_init_iff (r d : BitVec 8) (w : Word) :
    decode w = .ok (.init r d) ↔
      opcodeField w = 0x01 ∧ reservedI w = 0 ∧ rateField w = r ∧ dsepField w = d := by
  simp [decode_eq_ok_iff, decodeI_eq_ok_iff, decodeL_eq_ok_iff]

/-- The words of ABSORB (30_encoding.md R62). -/
theorem decode_eq_absorb_iff (n : BitVec 4) (w : Word) :
    decode w = .ok (.absorb n) ↔ opcodeField w = 0x02 ∧ reservedL w = 0 ∧ lengthField w = n := by
  simp [decode_eq_ok_iff, decodeI_eq_ok_iff, decodeL_eq_ok_iff]

/-- The words of SQUEEZE (30_encoding.md R62). -/
theorem decode_eq_squeeze_iff (n : BitVec 4) (w : Word) :
    decode w = .ok (.squeeze n) ↔ opcodeField w = 0x03 ∧ reservedL w = 0 ∧ lengthField w = n := by
  simp [decode_eq_ok_iff, decodeI_eq_ok_iff, decodeL_eq_ok_iff]

/-- A word of format I with OPC 0x01 is given by its fields. -/
theorem eq_encodeI_iff (r d : BitVec 8) (w : Word) :
    w = encodeI r d ↔ opcodeField w = 0x01 ∧ reservedI w = 0 ∧ rateField w = r ∧ dsepField w = d := by
  constructor
  · rintro rfl
    exact fields_encodeI r d
  · rintro ⟨hopcode, hreserved, hrate, hdsep⟩
    exact eq_encodeI r d w hopcode hreserved hrate hdsep

/-- A word of format L is given by its fields. -/
theorem eq_encodeL_iff (opc : BitVec 8) (n : BitVec 4) (w : Word) :
    w = encodeL opc n ↔ opcodeField w = opc ∧ reservedL w = 0 ∧ lengthField w = n := by
  constructor
  · rintro rfl
    exact fields_encodeL opc n
  · rintro ⟨hopcode, hreserved, hlength⟩
    exact eq_encodeL opc n w hopcode hreserved hlength

/-- Settles O1: a command's decoding and its encoding ask the same of the word's fields. -/
theorem decodeExactlyEncode : Obligations.DecodeExactlyEncode := by
  intro i w
  cases i with
  | init r d => exact (decode_eq_init_iff r d w).trans (eq_encodeI_iff r d w).symm
  | absorb n => exact (decode_eq_absorb_iff n w).trans (eq_encodeL_iff 0x02 n w).symm
  | squeeze n => exact (decode_eq_squeeze_iff n w).trans (eq_encodeL_iff 0x03 n w).symm

theorem decode_encode (i : Instr) : decode (encode i) = .ok i := (decodeExactlyEncode i (encode i)).mpr rfl

/-- Settles O3, by running the decoder on each word. -/
theorem decodeExamples : Obligations.DecodeExamples := by
  refine ⟨?_, ?_, ?_, ?_, ?_, ?_, ?_⟩ <;> rfl

/-! ### The matches of the opcode table -/

/-- Bits that a mask keeps whole are those of the pattern the masked word equals. -/
theorem extractLsb'_eq_of_and_eq {w mask pattern : Word} {k n : Nat} (h : w &&& mask = pattern)
    (hmask : mask.extractLsb' k n = BitVec.allOnes n) : w.extractLsb' k n = pattern.extractLsb' k n := by
  rw [← h, BitVec.extractLsb'_and, hmask, BitVec.and_allOnes]

/-- Format I's mask keeps OPC and RSVD whole (30_encoding.md R66). -/
theorem fieldsI_of_and_eq {w pattern : Word} (h : w &&& 0xFFFFFFFFFF0000FF#64 = pattern) :
    opcodeField w = opcodeField pattern ∧ reservedI w = reservedI pattern :=
  ⟨extractLsb'_eq_of_and_eq h (by decide), extractLsb'_eq_of_and_eq h (by decide)⟩

/-- Format L's mask keeps OPC and RSVD whole (30_encoding.md R66). -/
theorem fieldsL_of_and_eq {w pattern : Word} (h : w &&& 0xFFFFFFFFFFFFF0FF#64 = pattern) :
    opcodeField w = opcodeField pattern ∧ reservedL w = reservedL pattern :=
  ⟨extractLsb'_eq_of_and_eq h (by decide), extractLsb'_eq_of_and_eq h (by decide)⟩

/-- A word that decodes to a command matches the command's row (30_encoding.md R66). -/
theorem and_mask_eq_pattern_of_decode {w : Word} {i : Instr} (h : decode w = .ok i) :
    w &&& (opcodeRow i).mask = (opcodeRow i).pattern := by
  obtain rfl := (decodeExactlyEncode i w).mp h
  have hrow : Laws.EncodeRow.Statement i := by
    cases i with
    | init r d => exact Laws.EncodeRow.init r d
    | absorb n => exact Laws.EncodeRow.absorb n
    | squeeze n => exact Laws.EncodeRow.squeeze n
  exact eq_of_beq hrow

/-- Settles O2: a match fixes OPC and RSVD, which the decoder goes by, and a word that decodes has its row's match. -/
theorem decodeByMatches : Obligations.DecodeByMatches := by
  intro w
  refine ⟨fun hinit => ?_, fun habsorb => ?_, fun hsqueeze => ?_, fun hinit habsorb hsqueeze => ?_⟩
  · obtain ⟨hopcode, hreserved⟩ := fieldsI_of_and_eq hinit
    exact (decode_eq_init_iff _ _ w).mpr ⟨hopcode, hreserved, rfl, rfl⟩
  · obtain ⟨hopcode, hreserved⟩ := fieldsL_of_and_eq habsorb
    exact (decode_eq_absorb_iff _ w).mpr ⟨hopcode, hreserved, rfl⟩
  · obtain ⟨hopcode, hreserved⟩ := fieldsL_of_and_eq hsqueeze
    exact (decode_eq_squeeze_iff _ w).mpr ⟨hopcode, hreserved, rfl⟩
  · cases hdecode : decode w with
    | error c => rcases decode_error hdecode with rfl | rfl <;> simp
    | ok i =>
      have hmatch := and_mask_eq_pattern_of_decode hdecode
      cases i with
      | init r d => exact absurd hmatch hinit
      | absorb n => exact absurd hmatch habsorb
      | squeeze n => exact absurd hmatch hsqueeze

/-! ### The assembler's words -/

namespace Machine

/-- Settles O4: an operand that fits its field is the same number in the field and in the word. -/
theorem assembledWordsEncode : Obligations.AssembledWordsEncode := by
  have hfield {f k : Nat} (hf : f ≤ 64) (hk : k < 2 ^ f) : (BitVec.ofNat f k).setWidth 64 = BitVec.ofNat 64 k :=
    BitVec.setWidth_ofNat_of_le_of_lt hf hk
  refine ⟨fun r d hr hd => ?_, fun n hn => ?_⟩
  · rw [initWord, encode, encodeI, hfield (by decide) (by omega), hfield (by decide) (by omega)]
  · rw [countWord, countWord, encode, encode, encodeL, encodeL, hfield (by decide) (by omega)]
    exact ⟨rfl, rfl⟩

end Machine

end Sys2Proof
end

section
/-! PROOFS. A SQUEEZE beside the host: it reads and writes nothing that the host's own steps change, so the DOUT that a
waiting host reads is the command's own (70_reset_and_hazards.md R227). They settle O45. -/

namespace Sys2Proof.Machine

/-! ### SQUEEZE and the host's part of the state -/

/-- The state s with the host's part of p: DIN, the handshake with its accepted command, the bus port, the events, and
the turn. -/
def State.withHostPart (s p : State) : State :=
  { s with din := p.din, busy := p.busy, pcmd := p.pcmd, pdin := p.pdin, held := p.held, inputs := p.inputs,
           answers := p.answers, turn := p.turn }

variable (s p : State)

theorem refill_withHostPart : refill (s.withHostPart p) = (refill s).withHostPart p := by
  by_cases hcur : s.cur = s.rate
  · simp only [refill, State.withHostPart, State.permute, hcur, if_true]
  · simp only [refill, State.withHostPart, hcur, if_false]

theorem squeezeByte_withHostPart :
    squeezeByte (s.withHostPart p) = ((squeezeByte s).1, (squeezeByte s).2.withHostPart p) := by
  rw [squeezeByte, refill_withHostPart]
  rfl

theorem squeezeBytes_withHostPart (n : Nat) :
    squeezeBytes n (s.withHostPart p) = ((squeezeBytes n s).1, (squeezeBytes n s).2.withHostPart p) := by
  induction n generalizing s with
  | zero => rfl
  | succ n ih => rw [squeezeBytes, squeezeByte_withHostPart, ih, squeezeBytes]

theorem squeezeOut_withHostPart (n : Nat) : squeezeOut n (s.withHostPart p) = (squeezeOut n s).withHostPart p := by
  rw [squeezeOut, squeezeBytes_withHostPart]
  rfl

theorem finalize_withHostPart : finalize (s.withHostPart p) = (finalize s).withHostPart p := by
  simp only [finalize, padInput, State.permute, State.xorBlock, State.xorStateByte, State.pushByte, State.withHostPart]

theorem ensureFinal_withHostPart : ensureFinal (s.withHostPart p) = (ensureFinal s).withHostPart p := by
  cases hfin : s.fin
  · rw [ensureFinal_of_not_fin hfin, ensureFinal_of_not_fin (s := s.withHostPart p) hfin, finalize_withHostPart]
  · rw [ensureFinal_of_fin hfin, ensureFinal_of_fin (s := s.withHostPart p) hfin]

variable {s}

/-- SQUEEZE neither reads nor writes the host's part of the state (44_squeeze.md R162). -/
theorem exec_squeeze_withHostPart {n : BitVec 4} {t : State} (h : exec (.squeeze n) s = .next t) :
    exec (.squeeze n) (s.withHostPart p) = .next (t.withHostPart p) := by
  have hfailure : squeezeFailure n (s.withHostPart p) = squeezeFailure n s := rfl
  simp only [exec, execSqueeze, hfailure] at h ⊢
  cases hcause : squeezeFailure n s with
  | none =>
    simp only [hcause] at h ⊢
    obtain rfl := Host.Outcome.next.inj h
    rw [ensureFinal_withHostPart, squeezeOut_withHostPart]
    rfl
  | some c =>
    simp only [hcause] at h ⊢
    by_cases hc : c = .invariant
    · subst hc
      cases h
    · rw [failCommand_next hc] at h ⊢
      obtain rfl := Host.Outcome.next.inj h
      rfl

/-! ### The steps of a host that issues, waits and reads -/

/-- With BUSY = 0 and no write held, the step takes the host's next event. -/
theorem step_takes_event {e : HostEvent} {rest : List HostEvent} (hidle : s.busy = false) (hheld : s.held = none)
    (hinputs : s.inputs = e :: rest) : step s = .next (takeEvent e s.nextTurn.dropInput) := by
  have hready : hostReady s = true := by cases e <;> simp [hostReady, hheld, hinputs, hidle]
  rw [step_of_idle hready hidle]
  simp only [hostStep, State.nextTurn_held, State.nextTurn_inputs, hheld, hinputs]

/-- With BUSY = 1 and WAIT next, the engine completes its command (30_encoding.md R67). -/
theorem step_completes_at_wait {rest : List HostEvent} (hbusy : s.busy = true) (hheld : s.held = none)
    (hinputs : s.inputs = .wait :: rest) : step s = complete s.nextTurn := by
  have hready : hostReady s = false := by simp [hostReady, hheld, hinputs, hbusy]
  rw [step_of_not_hostReady hready, if_pos hbusy]

variable (s)

theorem takeEvent_memWrite (r : Reg) (v : Word) : takeEvent (memWrite r v) s = writeReg r v s := by
  simp only [memWrite, takeEvent, busAccess, windowOffset_base_add, windowAccess_write]

theorem takeEvent_memRead (r : Reg) :
    takeEvent (memRead r) s = grantAccess (regOffset r) .read (s.readReg r) s := by
  simp only [memRead, takeEvent, busAccess, windowOffset_base_add, windowAccess_read]

theorem takeEvent_wait : takeEvent .wait s = grantAccess (regOffset .status) .read s.statusWord s :=
  windowAccess_read .status s

variable {s}

/-- An idle engine accepts a CMD write, which changes the host's part of the state only (20_memory.md R46). -/
theorem step_accepts_cmd {w : Word} {rest : List HostEvent} (hidle : s.busy = false) (hheld : s.held = none)
    (hinputs : s.inputs = memWrite .cmd w :: rest) :
    ∃ a, step s = .next a ∧ a.nextTurn = s.withHostPart a.nextTurn ∧ a.pcmd = w ∧ a.busy = true ∧ a.held = none ∧
      a.inputs = rest := by
  have haccept : writeReg .cmd w s.nextTurn.dropInput = acceptCmd w s.nextTurn.dropInput := if_neg (by simp [hidle])
  refine ⟨acceptCmd w s.nextTurn.dropInput, ?_, ?_, rfl, rfl, rfl, ?_⟩
  · rw [step_takes_event hidle hheld hinputs, takeEvent_memWrite, haccept]
  · simp only [State.withHostPart, acceptCmd, grantAccess, State.respond, State.accept, State.nextTurn, State.dropInput]
  · simp [acceptCmd, grantAccess, hinputs]

/-- An idle engine answers a host event that reads register r with its value, stays idle, and keeps DOUT
(20_memory.md R48). -/
theorem step_answers_read {e : HostEvent} {r : Reg} {rest : List HostEvent}
    (hread : ∀ a, takeEvent e a = grantAccess (regOffset r) .read (a.readReg r) a) (hidle : s.busy = false)
    (hheld : s.held = none) (hinputs : s.inputs = e :: rest) :
    ∃ u, step s = .next u ∧ u.busy = false ∧ u.held = none ∧ u.inputs = rest ∧ u.dout = s.dout ∧
      u.answers.head? = some { offset := regOffset r, op := .read, status := .okay, data := s.readReg r } := by
  have hvalue : s.nextTurn.dropInput.readReg r = s.readReg r := by cases r <;> rfl
  refine ⟨grantAccess (regOffset r) .read (s.readReg r) s.nextTurn.dropInput, ?_, hidle, hheld, ?_, rfl, rfl⟩
  · rw [step_takes_event hidle hheld hinputs, hread, hvalue]
  · simp [grantAccess, hinputs]

/-- A completion of a command that answers a next state (70_reset_and_hazards.md R224). -/
theorem complete_of_exec {i : Instr} {t : State} (hdecode : decode s.pcmd = .ok i) (hexec : exec i s = .next t) :
    complete s = .next t.release := by
  simp only [complete, hdecode, hexec, releaseOutcome]

/-- Settles O45: the write is accepted, the WAIT lets the engine complete first, and no command comes between the
completion and the read. -/
theorem waitedReadIsCurrent : Obligations.WaitedReadIsCurrent := by
  intro n s t hidle hheld hinputs hexec
  obtain ⟨a, hissue, hpart, hpcmd, hbusy, hnone, hrest⟩ := step_accepts_cmd hidle hheld hinputs
  have hdecode : decode a.nextTurn.pcmd = .ok (.squeeze n) := by rw [State.nextTurn_pcmd, hpcmd, decode_encode]
  have hsqueeze : exec (.squeeze n) a.nextTurn = .next (t.withHostPart a.nextTurn) := by
    have hsame := exec_squeeze_withHostPart a.nextTurn hexec
    rwa [← hpart] at hsame
  have hcomplete : step a = .next (t.withHostPart a.nextTurn).release := by
    rw [step_completes_at_wait hbusy hnone hrest, complete_of_exec hdecode hsqueeze]
  obtain ⟨c, hwait, hidle', hheld', hinputs', hdout, _⟩ :=
    step_answers_read (s := (t.withHostPart a.nextTurn).release) (r := .status) takeEvent_wait rfl hnone hrest
  obtain ⟨u, hread, hidleEnd, _, hinputsEnd, _, hanswer⟩ :=
    step_answers_read (takeEvent_memRead · .dout) hidle' hheld' hinputs'
  refine ⟨u, ?_, hidleEnd, hinputsEnd, ?_⟩
  · rw [run_next hissue, run_next hcomplete, run_next hwait, run_next hread]
    rfl
  · rw [hanswer, State.readReg, hdout]
    rfl

end Sys2Proof.Machine
end

section
/-! PROOFS. The rotation bit by bit, and the θ, χ and ι steps lane by lane (41_permutation.md R100, R102, R104, R105).
They settle O25, O27 and O29. -/

namespace Sys2Proof.Machine

/-- The rotation of R100 is the rotation of 64-bit vectors. -/
theorem rotl64_eq_rotateLeft (v : Word) (s : Nat) : rotl64 v s = v.rotateLeft s := by
  rw [rotl64, BitVec.rotateLeft_def]
  split
  next hzero => simp [hzero, BitVec.ushiftRight_eq_zero]
  next => rfl

/-- Settles O25: bit i moves to bit i + s, and past bit 63 it comes back at bit 0. -/
theorem rotationBits : Obligations.RotationBits := by
  intro v s
  refine ⟨fun i hi => ?_, rotl64_zero v, by simp [rotl64]⟩
  rw [rotl64_eq_rotateLeft, BitVec.getLsbD_rotateLeft]
  by_cases hwrap : (i + s) % 64 < s % 64
  · have hback : 64 - s % 64 + (i + s) % 64 = i := by omega
    simp [hwrap, hback]
  · have hback : (i + s) % 64 - s % 64 = i := by omega
    simp [hwrap, hback, Nat.mod_lt]

/-- A lane of a state given lane by lane, by its coordinates (10_state.md R10). -/
theorem laneXY_ofFn (f : Fin 25 → Word) {x y : Nat} (hx : x < 5) (hy : y < 5) :
    laneXY (Vector.ofFn f) x y = f ⟨x + 5 * y, by omega⟩ :=
  laneAt_ofFn f (by omega)

/-- The column of lane x + 5 * y. -/
theorem laneIndex_mod {x : Nat} (hx : x < 5) (y : Nat) : (x + 5 * y) % 5 = x := by omega

/-- The row of lane x + 5 * y. -/
theorem laneIndex_div {x : Nat} (hx : x < 5) (y : Nat) : (x + 5 * y) / 5 = y := by omega

/-- θ XORs D[x] into every lane of column x (41_permutation.md R102). -/
theorem laneXY_theta (a : Lanes) {x y : Nat} (hx : x < 5) (hy : y < 5) :
    laneXY (theta a) x y = laneXY a x y ^^^ columnMix a x := by
  rw [theta, laneXY_ofFn _ hx hy, laneIndex_mod hx, laneXY]

/-- Settles O27: D[x] written out by the parities of the two neighbouring columns. -/
theorem thetaLanes : Obligations.ThetaLanes :=
  fun a _ _ hx hy => laneXY_theta a hx hy

/-- χ on a lane reads the two lanes to its right in the row it is given (41_permutation.md R104). -/
theorem laneXY_chi (a : Lanes) {x y : Nat} (hx : x < 5) (hy : y < 5) :
    laneXY (chi a) x y =
      laneXY a x y ^^^ (~~~(laneXY a ((x + 1) % 5) y) &&& laneXY a ((x + 2) % 5) y) := by
  rw [chi, laneXY_ofFn _ hx hy, laneIndex_mod hx, laneIndex_div hx]
  rfl

/-- ι writes lane 0 only (41_permutation.md R105). -/
theorem laneAt_iota (a : Lanes) (i j : Nat) :
    laneAt (iota a i) j = if j = 0 then laneAt a 0 ^^^ roundConstant i else laneAt a j :=
  laneAt_setLane (by decide) _ j

/-- Settles O29, from the lanes of χ and of ι. -/
theorem chiIotaLanes : Obligations.ChiIotaLanes :=
  ⟨fun a _ _ hx hy => laneXY_chi a hx hy, fun a i j _ => laneAt_iota a i j⟩

end Sys2Proof.Machine
end

section
/-! PROOFS. The round constants as words made of the LFSR's output bits (41_permutation.md R101). They settle O26. -/

namespace Sys2Proof.Machine

/-- The word with rc(j + 7 * i) at bit 2^j - 1 for each j among `places`, and 0 at every other bit. -/
def lfsrWord (i : Nat) (places : List Nat) : Word :=
  places.foldr (fun j w => placedField (BitVec.ofBool (lfsrBit (j + 7 * i))) (2 ^ j - 1) ||| w) 0

theorem lfsrWord_cons (i j : Nat) (js : List Nat) :
    lfsrWord i (j :: js) = placedField (BitVec.ofBool (lfsrBit (j + 7 * i))) (2 ^ j - 1) ||| lfsrWord i js := rfl

/-- A 1-bit field is at its bit and nowhere else. -/
theorem getLsbD_placedField_ofBool (c : Bool) (k : Nat) {b : Nat} (hb : b < 64) :
    (placedField (BitVec.ofBool c) k).getLsbD b = (decide (b = k) && c) := by
  rw [getLsbD_placedField, BitVec.getLsbD_ofBool]
  rcases lt_trichotomy b k with hlt | rfl | hgt
  · simp [hlt.ne, hlt]
  · simp [hb]
  · have hpast : b - k ≠ 0 := by omega
    simp [hgt.ne', hpast]

/-- Every bit of the generated word, by induction on the places. -/
theorem getLsbD_lfsrWord (i : Nat) (places : List Nat) {b : Nat} (hb : b < 64) :
    (lfsrWord i places).getLsbD b = places.any fun j => decide (b = 2 ^ j - 1) && lfsrBit (j + 7 * i) := by
  induction places with
  | nil => simp [lfsrWord]
  | cons j js ih => rw [lfsrWord_cons, BitVec.getLsbD_or, getLsbD_placedField_ofBool _ _ hb, ih, List.any_cons]

/-- The 24 entries of the table are the generated words. -/
theorem roundConstant_eq_lfsrWord : ∀ i < 24, roundConstant i = lfsrWord i (List.range 7) := by
  decide +kernel

/-- Settles O26: each entry is the word that the LFSR generates, whose bits are known. -/
theorem roundConstantsGenerated : Obligations.RoundConstantsGenerated := by
  intro i hi b hb
  rw [roundConstant_eq_lfsrWord i hi, getLsbD_lfsrWord i _ hb]

end Sys2Proof.Machine
end

section
/-! PROOFS. The walk of ρ and π in closed form (41_permutation.md R103): the walk's coordinates do not depend on the
lanes, it writes each lane other than lane 0 once, and it reads a lane before it writes it. They settle O28. -/

namespace Sys2Proof.Machine

/-! ### The path of the walk -/

/-- The coordinates after t steps from lane(1, 0). -/
def walkCoords : Nat → Nat × Nat
  | 0 => (1, 0)
  | t + 1 => ((walkCoords t).2, (2 * (walkCoords t).1 + 3 * (walkCoords t).2) % 5)

/-- The lane at the coordinates after t steps: step t moves from lane `walkLane t` to lane `walkLane (t + 1)`. -/
def walkLane (t : Nat) : Nat := (walkCoords t).1 + 5 * (walkCoords t).2

/-- The offset of step t. -/
def walkOffset (t : Nat) : Nat := (t + 1) * (t + 2) / 2 % 64

/-- R[x][y], the offset table of R103. -/
def rhoOffset (x y : Nat) : Nat :=
  ([[0, 1, 62, 28, 27], [36, 44, 6, 55, 20], [3, 10, 43, 25, 39], [41, 45, 15, 21, 8], [18, 2, 61, 56, 14]].getD
    y []).getD x 0

theorem walkCoords_lt (t : Nat) : (walkCoords t).1 < 5 ∧ (walkCoords t).2 < 5 := by
  induction t with
  | zero => decide
  | succ t ih => exact ⟨ih.2, Nat.mod_lt _ (by decide)⟩

theorem walkLane_lt (t : Nat) : walkLane t < 25 := by
  obtain ⟨hx, hy⟩ := walkCoords_lt t
  unfold walkLane
  omega

/-- No lane is a destination twice. -/
theorem walkLane_ne_earlier : ∀ t < 24, ∀ s < t, walkLane (t + 1) ≠ walkLane (s + 1) := by decide

/-- Lane 0 is no destination. -/
theorem walkLane_ne_zero : ∀ s < 24, walkLane (s + 1) ≠ 0 := by decide

/-- Every lane other than lane 0 is the source of a step, whose offset is the table's. -/
theorem exists_walkCoords_eq : ∀ x < 5, ∀ y < 5, (x, y) ≠ (0, 0) →
    ∃ t < 24, walkCoords t = (x, y) ∧ walkOffset t = rhoOffset x y := by decide

/-! ### The lanes along the walk -/

/-- The walk after its first t steps. -/
def walkAfter (a : Lanes) (t : Nat) : Walk :=
  (List.range t).foldl walkStep { lanes := a, x := 1, y := 0, current := laneAt a 1 }

theorem walkAfter_succ (a : Lanes) (t : Nat) : walkAfter a (t + 1) = walkStep (walkAfter a t) t := by
  simp [walkAfter, List.range_succ]

theorem rhoPi_eq_walkAfter (a : Lanes) : rhoPi a = (walkAfter a 24).lanes := rfl

/-- What holds after t steps on the lanes `a`: the walk is at its coordinates and carries that lane's first value; each
destination so far holds its source's first value, rotated; every other lane is as it was. -/
structure Walked (a : Lanes) (t : Nat) (w : Walk) : Prop where
  coords : (w.x, w.y) = walkCoords t
  current : w.current = laneAt a (walkLane t)
  written : ∀ s < t, laneAt w.lanes (walkLane (s + 1)) = rotl64 (laneAt a (walkLane s)) (walkOffset s)
  unwritten : ∀ k, (∀ s < t, k ≠ walkLane (s + 1)) → laneAt w.lanes k = laneAt a k

/-- A step at the walk's coordinates rotates `current` into the next lane of the path and takes up that lane's value. -/
theorem walkStep_eq {w : Walk} {t : Nat} (h : (w.x, w.y) = walkCoords t) :
    walkStep w t =
      { lanes := setLane w.lanes (walkLane (t + 1)) (rotl64 w.current (walkOffset t))
        x := (walkCoords (t + 1)).1, y := (walkCoords (t + 1)).2
        current := laneAt w.lanes (walkLane (t + 1)) } := by
  simp only [walkStep, walkLane, walkCoords, ← h, walkOffset]

/-- Each of the 24 steps keeps the invariant: its destination has not been written before. -/
theorem Walked.step {a : Lanes} {t : Nat} {w : Walk} (ht : t < 24) (h : Walked a t w) :
    Walked a (t + 1) (walkStep w t) := by
  rw [walkStep_eq h.coords]
  refine ⟨rfl, h.unwritten _ (walkLane_ne_earlier t ht), fun s hs => ?_, fun k hk => ?_⟩
  · rw [laneAt_setLane (walkLane_lt _)]
    rcases Nat.lt_succ_iff_lt_or_eq.mp hs with hlt | rfl
    · rw [if_neg (walkLane_ne_earlier t ht s hlt).symm, h.written s hlt]
    · rw [if_pos rfl, h.current]
  · rw [laneAt_setLane (walkLane_lt _), if_neg (hk t (Nat.lt_succ_self t))]
    exact h.unwritten k fun s hs => hk s (Nat.lt_succ_of_lt hs)

/-- The invariant holds along the whole walk. -/
theorem walked_walkAfter (a : Lanes) {t : Nat} (ht : t ≤ 24) : Walked a t (walkAfter a t) := by
  induction t with
  | zero => exact ⟨rfl, rfl, fun _ hs => absurd hs (Nat.not_lt_zero _), fun _ _ => rfl⟩
  | succ t ih =>
    rw [walkAfter_succ]
    exact (ih (by omega)).step ht

/-- ρ and π in closed form: lane 0 is never written, and every other lane is the source of one step of the walk. -/
theorem laneXY_rhoPi (a : Lanes) {x y : Nat} (hx : x < 5) (hy : y < 5) :
    laneXY (rhoPi a) y ((2 * x + 3 * y) % 5) = rotl64 (laneXY a x y) (rhoOffset x y) := by
  have hwalked : Walked a 24 (walkAfter a 24) := walked_walkAfter a le_rfl
  rw [rhoPi_eq_walkAfter]
  by_cases horigin : (x, y) = (0, 0)
  · obtain ⟨rfl, rfl⟩ := Prod.mk.inj horigin
    have hkept : laneAt (walkAfter a 24).lanes 0 = laneAt a 0 :=
      hwalked.unwritten 0 fun s hs => (walkLane_ne_zero s hs).symm
    exact hkept.trans (rotl64_zero _).symm
  · obtain ⟨t, ht, hcoords, hoffset⟩ := exists_walkCoords_eq x hx y hy horigin
    have hwritten := hwalked.written t ht
    rw [hoffset] at hwritten
    simpa only [walkLane, walkCoords, hcoords, laneXY] using hwritten

/-- Settles O28: `rhoOffset` is the statement's table. -/
theorem rhoPiClosedForm : Obligations.RhoPiClosedForm :=
  fun a _ _ hx hy => laneXY_rhoPi a hx hy

end Sys2Proof.Machine
end

section
/-! PROOFS. The lane/byte codec on bytes and on whole lanes (42_lane_codec.md R120, R121, R125). They settle O32 and
O31. -/

namespace Sys2Proof.Machine

/-- Settles O32: the byte written is the only one changed, in its lane and in the others. -/
theorem xorStateByteBytes : Obligations.XorStateByteBytes :=
  fun a b _ _ hj _ => stateByte_xorByteInto a b hj

/-- Byte k of lane l is state byte 8 * l + k (10_state.md R11). -/
theorem byteOf_laneAt (a : Lanes) (l : Nat) {k : Nat} (hk : k < 8) :
    byteOf (laneAt a l) k = stateByte a (8 * l + k) := by
  have hlane : (8 * l + k) / 8 = l := by omega
  have hplace : (8 * l + k) % 8 = k := by omega
  apply BitVec.eq_of_getLsbD_eq
  intro i hi
  rw [getLsbD_byteOf _ _ hi, getLsbD_stateByte _ _ _ hi, hlane, hplace]

theorem byteOf_xor (v w : Word) (k : Nat) : byteOf (v ^^^ w) k = byteOf v k ^^^ byteOf w k :=
  BitVec.extractLsb'_xor

/-- Eight bytes packed, each written at its place (42_lane_codec.md R124). -/
theorem packBytes_eight (b₀ b₁ b₂ b₃ b₄ b₅ b₆ b₇ : Byte) :
    packBytes [b₀, b₁, b₂, b₃, b₄, b₅, b₆, b₇] =
      (b₀.setWidth 64 ||| b₁.setWidth 64 <<< 8 ||| b₂.setWidth 64 <<< 16 ||| b₃.setWidth 64 <<< 24 |||
        b₄.setWidth 64 <<< 32 ||| b₅.setWidth 64 <<< 40 ||| b₆.setWidth 64 <<< 48 ||| b₇.setWidth 64 <<< 56) := by
  simp [packBytes, BitVec.shiftLeft_or_distrib, ← BitVec.shiftLeft_add, BitVec.or_assoc]

/-- XorBlock(n) changes a lane that lies below n by its eight buffer bytes, packed (42_lane_codec.md R125). -/
theorem laneAt_xorBlockInto (a : Lanes) (buf : Buffer) {n l : Nat} (hn : n ≤ 199) (hl : 8 * l + 8 ≤ n) :
    laneAt (xorBlockInto a buf n) l =
      laneAt a l ^^^ packBytes ((List.range 8).map fun k => bufAt buf (8 * l + k)) := by
  apply eq_of_byteOf_eq
  intro k hk
  have hbuf : byteOf (packBytes ((List.range 8).map fun k => bufAt buf (8 * l + k))) k = bufAt buf (8 * l + k) := by
    rw [byteOf_packBytes _ hk]
    simp [hk]
  rw [byteOf_xor, hbuf, byteOf_laneAt _ _ hk, byteOf_laneAt _ _ hk, xorBlockBytes a buf n _ hn (by omega),
    if_pos (by omega)]

/-- Settles O31: the lane changes by its buffer bytes packed, which is the 64-bit value they make. -/
theorem xorBlockLane : Obligations.XorBlockLane := fun a buf _ l hn hl =>
  (laneAt_xorBlockInto a buf hn hl).trans
    (congrArg (laneAt a l ^^^ ·) (packBytes_eight _ _ _ _ _ _ _ _))

end Sys2Proof.Machine
end

section
/-! PROOFS. ABSORB: the counts of bytes and permutations, the byte-at-a-time rule against whole blocks, and the bytes of
PDIN that are not read (43_absorb.md R140 to R142; 42_lane_codec.md R123). They settle O13, O12 and O15. -/

namespace Sys2Proof.Machine

/-! ### The counts -/

/-- Whole blocks counted in two parts: those up to c, and those that what c leaves makes with n more. -/
theorem div_add_div_mod_add {r : Nat} (hr : 0 < r) (c n : Nat) : c / r + (c % r + n) / r = (c + n) / r := by
  conv_rhs => rw [← Nat.div_add_mod c r, Nat.add_assoc, Nat.mul_add_div hr]

/-- BUFLEN counts the bytes absorbed, modulo RATE (43_absorb.md R141). -/
theorem absorbBytes_buflen {s : State} (h : RateLegal s.rate ∧ s.buflen.toNat < s.rate.toNat) (m : List Byte) :
    (absorbBytes s m).buflen.toNat = (s.buflen.toNat + m.length) % s.rate.toNat := by
  induction m generalizing s with
  | nil => exact (Nat.mod_eq_of_lt h.2).symm
  | cons b bs ih =>
    rw [absorbBytes_cons, ih (absorbByte_absorbing h b), absorbByte_rate, absorbByte_buflen h, Nat.mod_add_mod,
      List.length_cons, Nat.add_assoc, Nat.add_comm 1]

/-- One permutation for each block that the bytes complete (70_reset_and_hazards.md R226). -/
theorem absorbBytes_permCount {s : State} (h : RateLegal s.rate ∧ s.buflen.toNat < s.rate.toNat) (m : List Byte) :
    (absorbBytes s m).permCount = s.permCount + (s.buflen.toNat + m.length) / s.rate.toNat := by
  induction m generalizing s with
  | nil => rw [List.length_nil, Nat.add_zero, Nat.div_eq_of_lt h.2]; rfl
  | cons b bs ih =>
    rw [absorbBytes_cons, ih (absorbByte_absorbing h b), absorbByte_rate, absorbByte_buflen h, absorbByte_permCount h,
      Nat.add_assoc, div_add_div_mod_add h.1.1, List.length_cons, Nat.add_assoc _ 1, Nat.add_comm 1]

/-! ### Whole blocks -/

@[simp] theorem pendingBytes_length (s : State) : (pendingBytes s).length = s.buflen.toNat := by simp [pendingBytes]

/-- Fewer bytes than a block stay pending. -/
theorem absorbBlocks_of_lt {r : Nat} {m : List Byte} (h : m.length < r) (fuel : Nat) (a : Lanes) :
    absorbBlocks fuel r a m = (a, m) := by
  cases fuel with
  | zero => rfl
  | succ fuel => exact if_neg (by omega)

/-- A whole block is XORed in and permuted, and the rest goes on (43_absorb.md R142). -/
theorem absorbBlocks_append {block : List Byte} (fuel : Nat) (a : Lanes) (m : List Byte) :
    absorbBlocks (fuel + 1) block.length a (block ++ m) =
      absorbBlocks fuel block.length (keccakP (xorBytesFrom a 0 block)) m := by
  rw [absorbBlocks, if_pos (by simp), List.take_left, List.drop_left]

/-- Absorbing byte by byte leaves the lanes and the pending bytes that whole blocks leave, whatever bound on their
number suffices (43_absorb.md R142). -/
theorem absorbBytes_eq_absorbBlocks {s : State} (h : RateLegal s.rate ∧ s.buflen.toNat < s.rate.toNat) {m : List Byte}
    {fuel : Nat} (hfuel : s.buflen.toNat + m.length ≤ fuel) :
    ((absorbBytes s m).lanes, pendingBytes (absorbBytes s m)) =
      absorbBlocks fuel s.rate.toNat s.lanes (pendingBytes s ++ m) := by
  induction m generalizing s fuel with
  | nil => rw [List.append_nil, absorbBlocks_of_lt (by simpa using h.2)]; rfl
  | cons b bs ih =>
    rw [List.length_cons] at hfuel
    rw [absorbBytes_cons, List.append_cons]
    have hnext := absorbByte_absorbing h b
    by_cases hfull : s.buflen.toNat + 1 = s.rate.toNat
    · obtain ⟨fuel, rfl⟩ : ∃ k, fuel = k + 1 := ⟨fuel - 1, by omega⟩
      have hblock : (pendingBytes s ++ [b]).length = s.rate.toNat := by simp [hfull]
      rw [← hblock, absorbBlocks_append, hblock]
      rw [absorbByte_full h b hfull] at hnext ⊢
      exact ih hnext (show 0 + bs.length ≤ fuel by omega)
    · rw [absorbByte_part h b hfull] at hnext ⊢
      have hrest := ih (fuel := fuel) hnext (by rw [pushByte_buflen_toNat h]; omega)
      rw [pendingBytes_pushByte h] at hrest
      exact hrest

/-- Settles O13: the number of bytes bounds the number of blocks. -/
theorem absorbIsBlockwise : Obligations.AbsorbIsBlockwise := by
  intro s m hctxv hinv hfin
  obtain ⟨hrate, hbuflen, _⟩ := hinv.absorbing hctxv hfin
  exact absorbBytes_eq_absorbBlocks ⟨hrate, hbuflen⟩ (by simp)

/-- Settles O12: the checks pass, and the message bytes are absorbed one at a time. -/
theorem absorbCompletes : Obligations.AbsorbCompletes := by
  intro n s hn hctxv hinv hfin
  obtain ⟨hrate, hbuflen, _⟩ := hinv.absorbing hctxv hfin
  have hcount := absorbBytes_buflen ⟨hrate, hbuflen⟩ (messageBytes s.pdin n.toNat)
  have hperm := absorbBytes_permCount ⟨hrate, hbuflen⟩ (messageBytes s.pdin n.toNat)
  have hblocks := absorbBytes_eq_absorbBlocks ⟨hrate, hbuflen⟩ (m := messageBytes s.pdin n.toNat)
    (fuel := s.buflen.toNat + n.toNat) (by simp)
  rw [messageBytes_length] at hcount hperm
  refine ⟨_, exec_absorb_ok hn hctxv hinv hfin, ?_, hblocks⟩
  rw [← hperm, ← hcount, BitVec.ofNat_toNat, BitVec.setWidth_eq]
  exact congrArg State.succeed (absorbBytes_frame s _)

/-! ### The bytes of PDIN that are not read -/

/-- The byte rules do not look at PDIN. -/
theorem absorbByte_withPdin (s : State) (v : Word) (b : Byte) :
    absorbByte { s with pdin := v } b = { absorbByte s b with pdin := v } := by
  by_cases hfull : (s.pushByte b).buflen = s.rate
  · rw [show absorbByte s b = _ from if_pos hfull]
    exact if_pos hfull
  · rw [show absorbByte s b = _ from if_neg hfull]
    exact if_neg hfull

theorem absorbBytes_withPdin (s : State) (v : Word) (m : List Byte) :
    absorbBytes { s with pdin := v } m = { absorbBytes s m with pdin := v } := by
  induction m generalizing s with
  | nil => rfl
  | cons b bs ih => rw [absorbBytes_cons, absorbByte_withPdin, ih, absorbBytes_cons]

/-- Two values of PDIN with the same first n bytes carry the same message. -/
theorem messageBytes_congr {v w : Word} {n : Nat} (h : ∀ k < n, byteOf v k = byteOf w k) :
    messageBytes v n = messageBytes w n :=
  List.map_congr_left fun k hk => h k (List.mem_range.mp hk)

/-- A failure that answers a next state is not INVARIANT, and raises its cause (60_exceptions.md R202, R205). -/
theorem failCommand_eq_next {c : Cause} {s t : State} (h : failCommand c s = .next t) :
    c ≠ .invariant ∧ t = s.raise c := by
  by_cases hc : c = .invariant
  · subst hc
    cases h
  · exact ⟨hc, Host.Outcome.next.inj (h.symm.trans (failCommand_next hc s))⟩

/-- Settles O15: the checks do not look at PDIN, and past them only the message bytes do. -/
theorem absorbIgnoresUnusedBytes : Obligations.AbsorbIgnoresUnusedBytes := by
  intro n s t v hbytes h
  have hchecks : absorbFailure n { s with pdin := v } = absorbFailure n s := rfl
  simp only [exec, execAbsorb, hchecks] at h ⊢
  cases hcause : absorbFailure n s with
  | none =>
    simp only [hcause] at h ⊢
    obtain rfl := Host.Outcome.next.inj h
    rw [messageBytes_congr hbytes, absorbBytes_withPdin]
    rfl
  | some c =>
    simp only [hcause] at h ⊢
    obtain ⟨hc, rfl⟩ := failCommand_eq_next h
    exact failCommand_next hc _

end Sys2Proof.Machine
end

section
/-! PROOFS. SQUEEZE: its frame, the bytes it packs into DOUT, and the output as one stream (44_squeeze.md R160 to R164;
42_lane_codec.md R124). They settle O19 and O20. -/

namespace Sys2Proof.Machine

/-! ### The frame -/

/-- SQUEEZE's output changes S, CUR, DOUT and the count of permutations only. -/
theorem squeezeOut_frame (n : Nat) (s : State) :
    squeezeOut n s = { s with lanes := (squeezeOut n s).lanes, cur := (squeezeOut n s).cur,
                              dout := (squeezeOut n s).dout, permCount := (squeezeOut n s).permCount } :=
  congrArg (fun u : State => { u with dout := packBytes (squeezeBytes n s).1 }) (squeezeBytes_frame n s)

/-- The buffer is zero where the context is finalized now, and kept where it was before (44_squeeze.md R160). -/
theorem ensureFinal_buf (s : State) : (ensureFinal s).buf = if s.fin then s.buf else Vector.replicate 199 0 := by
  cases hfin : s.fin
  · rw [ensureFinal_of_not_fin hfin, finalize_frame]
    rfl
  · rw [ensureFinal_of_fin hfin]
    rfl

/-- A finalized context has no pending bytes (10_state.md R27). -/
theorem ensureFinal_buflen {s : State} (hctxv : s.ctxv = true) (hinv : s.Inv) : (ensureFinal s).buflen = 0 :=
  ((ensureFinal_inv hinv hctxv).squeezing (by simp [hctxv]) (by simp)).2.1

/-- What output from the finalized context leaves, of the context before it was finalized. -/
theorem squeezeOut_ensureFinal_frame (n : Nat) (s : State) :
    squeezeOut n (ensureFinal s) =
      { s with lanes := (squeezeOut n (ensureFinal s)).lanes, buf := (ensureFinal s).buf,
               buflen := (ensureFinal s).buflen, fin := true, cur := (squeezeOut n (ensureFinal s)).cur,
               dout := (squeezeOut n (ensureFinal s)).dout,
               permCount := (squeezeOut n (ensureFinal s)).permCount } := by
  rw [squeezeOut_frame, ensureFinal_frame]

/-- Byte k of DOUT is the k-th output byte, and 0 past the last (42_lane_codec.md R124). -/
theorem byteOf_squeezeOut_dout (n : Nat) (s : State) {k : Nat} (hk : k < 8) :
    byteOf (squeezeOut n s).dout k = (squeezeBytes n s).1.getD k 0 :=
  byteOf_packBytes _ hk

/-- Settles O19: the output after the finalized context, whose frames meet, and N bytes packed. -/
theorem squeezeCompletes : Obligations.SqueezeCompletes := by
  intro n s hn hctxv hinv
  refine ⟨_, exec_squeeze_ok hn hctxv hinv, ?_, fun k hnk hk => ?_⟩
  · have hframe := squeezeOut_ensureFinal_frame n.toNat s
    rw [ensureFinal_buf, ensureFinal_buflen hctxv hinv] at hframe
    exact congrArg State.succeed hframe
  · have hlength : (squeezeBytes n.toNat (ensureFinal s)).1.length ≤ k := by rwa [squeezeBytes_length]
    exact (byteOf_squeezeOut_dout _ _ hk).trans (List.getD_eq_default _ _ hlength)

/-! ### The output stream -/

/-- A stream read on after its first c bytes, from the block it has come to. -/
theorem streamByte_permuted (a : Lanes) {r : Nat} (hr : 0 < r) (c k : Nat) :
    streamByte (permuted (c / r) a) r (c % r + k) = streamByte a r (c + k) := by
  rw [streamByte, permuted_add, div_add_div_mod_add hr, Nat.mod_add_mod, streamByte]

/-- The bytes of an output of any length are the stream's from CUR on (44_squeeze.md R163, R164). -/
theorem squeezeBytes_eq_stream {s : State} (h : RateLegal s.rate ∧ s.cur.toNat ≤ s.rate.toNat) (n : Nat) :
    (squeezeBytes n s).1 = (List.range n).map fun k => streamByte s.lanes s.rate.toNat (s.cur.toNat + k) := by
  induction n generalizing s with
  | zero => rfl
  | succ n ih =>
    obtain ⟨hbyte, hlanes, hcur, _⟩ := squeezeByte_eq h
    simp only [squeezeBytes]
    rw [ih (squeezeByte_ok h), hbyte, hlanes, hcur, squeezeByte_rate, List.range_succ_eq_map, List.map_cons,
      List.map_map]
    refine congrArg (_ :: ·) (List.map_congr_left fun k _ => ?_)
    rw [Nat.add_assoc, streamByte_permuted _ h.1.1, Nat.add_comm 1 k]
    rfl

/-- What n + 1 output bytes leave: the block of the last of them in S, CUR past that byte, and a permutation for each
block the output went on to (44_squeeze.md R163). -/
theorem squeezeBytes_succ_state {s : State} (h : RateLegal s.rate ∧ s.cur.toNat ≤ s.rate.toNat) (n : Nat) :
    (squeezeBytes (n + 1) s).2.lanes = permuted ((s.cur.toNat + n) / s.rate.toNat) s.lanes ∧
    (squeezeBytes (n + 1) s).2.cur.toNat = (s.cur.toNat + n) % s.rate.toNat + 1 ∧
    (squeezeBytes (n + 1) s).2.permCount = s.permCount + (s.cur.toNat + n) / s.rate.toNat := by
  induction n generalizing s with
  | zero => exact (squeezeByte_eq h).2
  | succ n ih =>
    obtain ⟨_, hlanes, hcur, hperm⟩ := squeezeByte_eq h
    obtain ⟨ihlanes, ihcur, ihperm⟩ := ih (squeezeByte_ok h)
    rw [squeezeByte_rate, hcur, Nat.add_assoc, Nat.add_comm 1 n] at ihlanes ihcur ihperm
    rw [hlanes, permuted_add, div_add_div_mod_add h.1.1] at ihlanes
    rw [Nat.mod_add_mod] at ihcur
    rw [hperm, Nat.add_assoc, div_add_div_mod_add h.1.1] at ihperm
    exact ⟨ihlanes, ihcur, ihperm⟩

/-- Settles O20: nothing is left to finalize, the packed bytes are the stream's, and N is one more than the bytes before
the last. -/
theorem squeezeReadsStream : Obligations.SqueezeReadsStream := by
  intro n s hpos hn hctxv hinv hfin
  obtain ⟨hrate, _, hcur⟩ := hinv.squeezing hctxv hfin
  obtain ⟨m, hm⟩ : ∃ m, n.toNat = m + 1 := ⟨n.toNat - 1, by omega⟩
  have hexec := exec_squeeze_ok hn hctxv hinv
  rw [ensureFinal_of_fin hfin] at hexec
  refine ⟨_, hexec, fun k hk => ?_, ?_⟩
  · have hbyte := byteOf_squeezeOut_dout n.toNat s (hk.trans_le hn)
    rw [squeezeBytes_eq_stream ⟨hrate, hcur⟩] at hbyte
    simpa [hk] using hbyte
  · rw [hm]
    exact squeezeBytes_succ_state ⟨hrate, hcur⟩ m

end Sys2Proof.Machine
end

section
/-! PROOFS. ABSORB in two parts: the byte rules look neither at ERR and ECAUSE nor at PDIN, so a second ABSORB goes on
where the first stopped (43_absorb.md R140, R142). They settle O14. -/

namespace Sys2Proof.Machine

/-- The byte rules do not look at ERR and ECAUSE. -/
theorem absorbByte_succeed (s : State) (b : Byte) : absorbByte s.succeed b = (absorbByte s b).succeed := by
  rw [absorbByte, absorbByte, apply_ite State.succeed]
  rfl

theorem absorbBytes_succeed (s : State) (m : List Byte) : absorbBytes s.succeed m = (absorbBytes s m).succeed := by
  induction m generalizing s with
  | nil => rfl
  | cons b bs ih => rw [absorbBytes_cons, absorbByte_succeed, ih, absorbBytes_cons]

/-- More bytes absorbed after a success, with a new PDIN, are the bytes absorbed at once, up to PDIN. -/
theorem absorbBytes_resume (s : State) (l m : List Byte) (v : Word) :
    absorbBytes { (absorbBytes s l).succeed with pdin := v } m =
      { (absorbBytes s (l ++ m)).succeed with pdin := v } := by
  rw [absorbBytes_withPdin, absorbBytes_succeed, absorbBytes_append]

/-- INV, CTXV and FIN do not depend on what a success and a new PDIN write, so the second ABSORB's checks pass. -/
theorem exec_absorb_after_absorb {s : State} {m : BitVec 4} (hm : m.toNat ≤ 8) (hctxv : s.ctxv = true) (hinv : s.Inv)
    (hfin : s.fin = false) (l : List Byte) (v : Word) :
    exec (.absorb m) { (absorbBytes s l).succeed with pdin := v } =
      .next { (absorbBytes s (l ++ messageBytes v m.toNat)).succeed with pdin := v } := by
  have hinv' : { (absorbBytes s l).succeed with pdin := v }.Inv := absorbBytes_inv hinv hctxv hfin l
  rw [exec_absorb_ok hm (by simp [hctxv]) hinv' (by simp [hfin]), absorbBytes_resume]
  rfl

/-- Settles O14: PDIN's first n + m bytes are its first n and then m from byte n on, and the second ABSORB goes on with
those. -/
theorem absorbSplit : Obligations.AbsorbSplit := by
  intro n m s t u hlen hctxv hinv hfin hfirst hsecond
  have hsum : (n + m).toNat = n.toNat + m.toNat := BitVec.toNat_add_of_lt (by omega)
  rw [exec_absorb_ok (by omega) hctxv hinv hfin] at hfirst
  obtain rfl := Host.Outcome.next.inj hfirst
  rw [exec_absorb_after_absorb (by omega) hctxv hinv hfin, ← messageBytes_add] at hsecond
  obtain rfl := Host.Outcome.next.inj hsecond
  rw [exec_absorb_ok (by omega) hctxv hinv hfin, hsum]
  exact congrArg Host.Outcome.next (congrArg State.succeed (absorbBytes_withPdin s s.pdin _))

end Sys2Proof.Machine
end

section
/-! PROOFS. Finalize, a first SQUEEZE, a SQUEEZE of no bytes, and SQUEEZE commands one after another (44_squeeze.md
R160 to R165). They settle O16, O17, O18, O21, O22 and O23. -/

namespace Sys2Proof.Machine

/-! ### Finalize -/

/-- S before the permutation: the buffer with D appended is XORed in, then 0x80 (44_squeeze.md R160 steps 1 to 3). -/
theorem padInput_lanes (s : State) :
    (padInput s).lanes =
      xorByteInto (xorBlockInto s.lanes (s.pushByte s.dsep).buf (s.pushByte s.dsep).buflen.toNat)
        (s.rate.toNat - 1) 0x80 := rfl

theorem finalize_lanes (s : State) : (finalize s).lanes = keccakP (padInput s).lanes := by
  simp only [finalize, State.permute_lanes]

/-- Settles O16: the bytes that XorBlock reads from the buffer are the pending bytes and D. -/
theorem finalizePads : Obligations.FinalizePads := by
  intro s hctxv hinv hfin
  obtain ⟨hrate, hbuflen, _⟩ := hinv.absorbing hctxv hfin
  have hpending := pendingBytes_pushByte ⟨hrate, hbuflen⟩ s.dsep
  rw [pendingBytes] at hpending
  rw [finalize_frame, finalize_lanes, padInput_lanes, xorBlockInto_eq, hpending]

/-- Settles O17: D is the last byte of a whole block, so XorBlock and then 0x80 write the same state byte. -/
theorem padBytesShare : Obligations.PadBytesShare := by
  intro s hctxv hinv hfin hlast
  obtain ⟨⟨hpos, hmax⟩, hbuflen, _⟩ := hinv.absorbing hctxv hfin
  have hdsep : bufAt (s.pushByte s.dsep).buf (s.rate.toNat - 1) = s.dsep := by
    rw [State.pushByte_buf, bufAt_setBuf (by omega), if_pos hlast.symm]
  rw [padInput_lanes, stateByte_xorByteInto _ _ (by omega), if_pos rfl,
    pushByte_buflen_toNat ⟨⟨hpos, hmax⟩, hbuflen⟩, xorBlockBytes _ _ _ _ (by omega) (by omega), if_pos (by omega),
    hdsep, BitVec.xor_assoc]

/-! ### A first SQUEEZE, and a SQUEEZE of no bytes -/

/-- SQUEEZE does on a context what it does on the finalized one, whatever FIN is (44_squeeze.md R162). -/
theorem exec_squeeze_ensureFinal {n : BitVec 4} {s : State} (hn : n.toNat ≤ 8) (hctxv : s.ctxv = true)
    (hinv : s.Inv) : exec (.squeeze n) (ensureFinal s) = exec (.squeeze n) s := by
  rw [exec_squeeze_ok hn hctxv hinv, exec_squeeze_ok hn (by simp [hctxv]) (ensureFinal_inv hinv hctxv),
    ensureFinal_of_fin (ensureFinal_fin s)]

/-- Settles O18: where FIN = 0, finalizing when needed is finalizing. -/
theorem squeezeFinalizesFirst : Obligations.SqueezeFinalizesFirst := by
  intro n s hn hctxv hinv hfin
  rw [← ensureFinal_of_not_fin hfin, exec_squeeze_ensureFinal hn hctxv hinv]

/-- Settles O23: no byte is produced, so the finalized context gets an empty DOUT and the success. -/
theorem squeezeNothing : Obligations.SqueezeNothing := by
  intro s hctxv hinv
  have hexec : exec (.squeeze 0) s = .next { ensureFinal s with dout := 0, err := 0, ecause := 0 } :=
    exec_squeeze_ok (by decide) hctxv hinv
  constructor
  · intro hfin
    rw [hexec, ensureFinal_of_fin hfin]
  · intro hfin
    rw [hexec, ensureFinal_of_not_fin hfin]

/-! ### One stream over any number of commands -/

/-- Settles O22: a finalized context meets what the stream law asks. -/
theorem squeezeBytesAreStream : Obligations.SqueezeBytesAreStream := by
  intro n s hctxv hinv hfin
  obtain ⟨hrate, _, hcur⟩ := hinv.squeezing hctxv hfin
  exact squeezeBytes_eq_stream ⟨hrate, hcur⟩ n

/-- The state s with the given results of a command: DOUT, ERR and ECAUSE. -/
def State.withResults (s : State) (dout : Word) (err : BitVec 4) (ecause : BitVec 8) : State :=
  { s with dout := dout, err := err, ecause := ecause }

/-- The byte rules look at no results of an earlier command. -/
theorem squeezeByte_withResults (s : State) (dout : Word) (err : BitVec 4) (ecause : BitVec 8) :
    squeezeByte (s.withResults dout err ecause) =
      ((squeezeByte s).1, (squeezeByte s).2.withResults dout err ecause) := by
  have hrefill : refill (s.withResults dout err ecause) = (refill s).withResults dout err ecause := by
    by_cases hcur : s.cur = s.rate
    · simp only [refill, State.withResults, State.permute, hcur, if_true]
    · simp only [refill, State.withResults, hcur, if_false]
  rw [squeezeByte, hrefill]
  rfl

theorem squeezeBytes_withResults (n : Nat) (s : State) (dout : Word) (err : BitVec 4) (ecause : BitVec 8) :
    squeezeBytes n (s.withResults dout err ecause) =
      ((squeezeBytes n s).1, (squeezeBytes n s).2.withResults dout err ecause) := by
  induction n generalizing s with
  | zero => rfl
  | succ n ih => rw [squeezeBytes, squeezeByte_withResults, ih, squeezeBytes]

/-- A success leaves the state after its bytes, with its results. -/
theorem squeezeOut_succeed (n : Nat) (s : State) :
    (squeezeOut n s).succeed = (squeezeBytes n s).2.withResults (packBytes (squeezeBytes n s).1) 0 0 := rfl

/-- Bytes packed after others stand above them (42_lane_codec.md R124). -/
theorem packBytes_append (l m : List Byte) : packBytes (l ++ m) = packBytes l ||| (packBytes m <<< (8 * l.length)) := by
  induction l with
  | nil => simp [packBytes]
  | cons b bs ih =>
    rw [List.cons_append, packBytes, ih, packBytes, BitVec.shiftLeft_or_distrib, ← BitVec.shiftLeft_add,
      BitVec.or_assoc, List.length_cons, Nat.mul_succ]

/-- Up to eight bytes packed into DOUT are read back from it (42_lane_codec.md R123, R124). -/
theorem messageBytes_packBytes {bytes : List Byte} (h : bytes.length ≤ 8) :
    messageBytes (packBytes bytes) bytes.length = bytes := by
  apply List.ext_getElem (messageBytes_length _ _)
  intro k _ hk
  rw [← List.getD_eq_getElem _ 0, messageBytes_getD _ hk, byteOf_packBytes _ (hk.trans_le h), List.getD_eq_getElem]

/-- The output bytes of a SQUEEZE are read back from its DOUT. -/
theorem messageBytes_squeezeOut_dout {n : Nat} (hn : n ≤ 8) (s : State) :
    messageBytes (squeezeOut n s).dout n = (squeezeBytes n s).1 := by
  have hlength := squeezeBytes_length n s
  have hread := messageBytes_packBytes (hlength.trans_le hn)
  rwa [hlength] at hread

/-- Two outputs one after the other are one of their sum, up to DOUT, which is put together from both. -/
theorem squeezeOut_add_succeed (n m : Nat) (s : State) :
    (squeezeOut (n + m) s).succeed =
      { (squeezeOut m (squeezeOut n s).succeed).succeed with
        dout := (squeezeOut n s).dout ||| ((squeezeOut m (squeezeOut n s).succeed).dout <<< (8 * n)) } := by
  rw [squeezeOut_succeed (n + m), squeezeOut_succeed n, squeezeOut, squeezeBytes_withResults, squeezeBytes_add,
    packBytes_append, squeezeBytes_length]
  rfl

/-- A SQUEEZE leaves nothing to finalize (44_squeeze.md R160). -/
theorem ensureFinal_squeezeOut_succeed (n : Nat) (s : State) :
    ensureFinal (squeezeOut n (ensureFinal s)).succeed = (squeezeOut n (ensureFinal s)).succeed :=
  ensureFinal_of_fin (by simp)

/-- After a SQUEEZE the next one goes on from the state it left (44_squeeze.md R164). -/
theorem exec_squeeze_after_squeeze {m : BitVec 4} {s : State} (hm : m.toNat ≤ 8) (hctxv : s.ctxv = true)
    (hinv : s.Inv) (n : Nat) :
    exec (.squeeze m) (squeezeOut n (ensureFinal s)).succeed =
      .next (squeezeOut m.toNat (squeezeOut n (ensureFinal s)).succeed).succeed := by
  have hinv' : (squeezeOut n (ensureFinal s)).succeed.Inv :=
    squeezeOut_inv (ensureFinal_inv hinv hctxv) (by simp [hctxv]) (by simp) n
  rw [exec_squeeze_ok hm (by simp [hctxv]) hinv', ensureFinal_squeezeOut_succeed]

/-- The output of a command is read from the DOUT it leaves, and the rest from the commands after it. -/
theorem squeezedBytes_cons {n : BitVec 4} {s t : State} (h : exec (.squeeze n) s = .next t) (ns : List (BitVec 4)) :
    squeezedBytes s (n :: ns) = messageBytes t.dout n.toNat ++ squeezedBytes t ns := by
  simp only [squeezedBytes, h]

/-- Any sequence of SQUEEZE commands gives the bytes of one squeeze of their sum (44_squeeze.md R164). -/
theorem squeezedBytes_eq_squeezeBytes {ns : List (BitVec 4)} {s : State} (hns : ∀ n ∈ ns, n.toNat ≤ 8)
    (hctxv : s.ctxv = true) (hinv : s.Inv) :
    squeezedBytes s ns = (squeezeBytes (ns.map BitVec.toNat).sum (ensureFinal s)).1 := by
  induction ns generalizing s with
  | nil => rfl
  | cons n ns ih =>
    obtain ⟨hn, hns⟩ := List.forall_mem_cons.mp hns
    have hexec := exec_squeeze_ok hn hctxv hinv
    rw [squeezedBytes_cons hexec, State.succeed_dout, messageBytes_squeezeOut_dout hn,
      ih hns (by simp [hctxv]) (exec_keeps_inv hinv hexec), ensureFinal_squeezeOut_succeed, squeezeOut_succeed,
      squeezeBytes_withResults, List.map_cons, List.sum_cons, squeezeBytes_add]

/-- Settles O21: the second SQUEEZE goes on where the first stopped, and so does each of a sequence. -/
theorem squeezeContinues : Obligations.SqueezeContinues := by
  refine ⟨fun n m s hlen hctxv hinv => ?_, fun ns s hns hctxv hinv => squeezedBytes_eq_squeezeBytes hns hctxv hinv⟩
  have hsum : (n + m).toNat = n.toNat + m.toNat := BitVec.toNat_add_of_lt (by omega)
  refine ⟨_, _, exec_squeeze_ok (by omega) hctxv hinv, exec_squeeze_after_squeeze (by omega) hctxv hinv n.toNat, ?_⟩
  rw [exec_squeeze_ok (by omega) hctxv hinv, hsum, squeezeOut_add_succeed]
  rfl

end Sys2Proof.Machine
end

section
/-! PROOFS. INIT: what it does for a legal rate and for any other, from the command and from its word
(45_context.md R180). They settle O9 and O10. -/

namespace Sys2Proof.Machine

/-- INIT with a legal rate. -/
theorem exec_init_ok {r : BitVec 8} (hr : RateLegal r) (d : BitVec 8) (s : State) :
    exec (.init r d) s = .next (s.freshContext r d).succeed := by
  simp only [exec, execInit, initFailure_none hr]

/-- INIT with any other rate fails with BAD_RATE. -/
theorem exec_init_badRate {r : BitVec 8} (hr : ¬RateLegal r) (d : BitVec 8) (s : State) :
    exec (.init r d) s = .next (s.raise .badRate) := by
  simp only [exec, execInit, initFailure_some hr, failCommand_next (c := .badRate) (by decide)]

/-- Settles O9: the fresh context, and then the success. -/
theorem initCompletes : Obligations.InitCompletes := fun _ d s hlow hhigh => exec_init_ok ⟨hlow, hhigh⟩ d s

/-- The rates that INIT rejects, as R180 lists them. -/
theorem not_rateLegal_iff (r : BitVec 8) : ¬RateLegal r ↔ r = 0 ∨ 200 ≤ r.toNat := by
  have hzero : r = 0 ↔ r.toNat = 0 := BitVec.toNat_eq
  rw [RateLegal, hzero]
  omega

/-- A word with OPC 0x01 and a set RSVD bit is rejected by the decoder (30_encoding.md R65). -/
theorem decode_eq_reservedBits {w : Word} (hopcode : opcodeField w = 0x01) (hreserved : reservedI w ≠ 0) :
    decode w = .error .reservedBits :=
  (if_pos hopcode).trans (if_neg hreserved)

/-- Settles O10, in the order of the checks: RSVD by the decoder, then the rate by the command. -/
theorem initWordOutcome : Obligations.InitWordOutcome := by
  intro s hopcode
  change complete s =
    if reservedI s.pcmd ≠ 0 then .next (s.raise .reservedBits).release
    else if rateField s.pcmd = 0 ∨ 200 ≤ (rateField s.pcmd).toNat then .next (s.raise .badRate).release
    else .next (s.freshContext (rateField s.pcmd) (dsepField s.pcmd)).succeed.release
  by_cases hreserved : reservedI s.pcmd = 0
  · have hdecode : decode s.pcmd = .ok (.init (rateField s.pcmd) (dsepField s.pcmd)) :=
      (decode_eq_init_iff _ _ _).mpr ⟨hopcode, hreserved, rfl, rfl⟩
    rw [if_neg (not_not.mpr hreserved)]
    simp only [← not_rateLegal_iff]
    split_ifs with hrate
    · exact complete_of_exec hdecode (exec_init_ok hrate _ s)
    · exact complete_of_exec hdecode (exec_init_badRate hrate _ s)
  · rw [if_pos hreserved]
    simp only [complete, decode_eq_reservedBits hopcode hreserved]

end Sys2Proof.Machine
end

section
/-! PROOFS. What came before an INIT: the engine's history stands in fields that no command reads, and INIT writes every
field that one reads (45_context.md R180; 95_test_vectors.md section 1.2 property 1). They settle O11. -/

namespace Sys2Proof.Machine

/-! ### Commands beside an engine's history -/

/-- The state s in an engine with the history p: DIN, the handshake, the bus port, the events and the turn are p's, and
STICKY and the count of permutations go on from p's. -/
def State.withHistory (s p : State) : State :=
  { s with din := p.din, busy := p.busy, pcmd := p.pcmd, held := p.held, inputs := p.inputs, answers := p.answers,
           turn := p.turn, sticky := s.sticky || p.sticky, permCount := p.permCount + s.permCount }

/-- The history p in the state that a fault carries. -/
def faultWithHistory (p : State) : Fault → Fault
  | .invariantFailed reported => .invariantFailed (reported.withHistory p)
  | .accessAcrossReset => .accessAcrossReset

/-- The history p in the state that an outcome reaches or a fault carries. -/
def outcomeWithHistory (p : State) : Host.Outcome State Fault Refusal → Host.Outcome State Fault Refusal
  | .next t => .next (t.withHistory p)
  | .fault r => .fault (faultWithHistory p r)
  | .refused r => .refused r

variable (s p : State)

/-- The byte rules do not look at the history; the count of permutations goes on from p's. -/
theorem absorbByte_withHistory (b : Byte) : absorbByte (s.withHistory p) b = (absorbByte s b).withHistory p := by
  by_cases hfull : s.buflen + 1 = s.rate
  · simp only [absorbByte, State.permute, State.xorBlock, State.pushByte, State.withHistory, hfull, if_true,
      Nat.add_assoc]
  · simp only [absorbByte, State.pushByte, State.withHistory, hfull, if_false]

theorem absorbBytes_withHistory (m : List Byte) :
    absorbBytes (s.withHistory p) m = (absorbBytes s m).withHistory p := by
  induction m generalizing s with
  | nil => rfl
  | cons b bs ih => rw [absorbBytes_cons, absorbByte_withHistory, ih, absorbBytes_cons]

theorem finalize_withHistory : finalize (s.withHistory p) = (finalize s).withHistory p := by
  simp only [finalize, padInput, State.permute, State.xorBlock, State.xorStateByte, State.pushByte, State.withHistory,
    Nat.add_assoc]

theorem ensureFinal_withHistory : ensureFinal (s.withHistory p) = (ensureFinal s).withHistory p := by
  cases hfin : s.fin
  · rw [ensureFinal_of_not_fin hfin, ensureFinal_of_not_fin (s := s.withHistory p) hfin, finalize_withHistory]
  · rw [ensureFinal_of_fin hfin, ensureFinal_of_fin (s := s.withHistory p) hfin]

theorem refill_withHistory : refill (s.withHistory p) = (refill s).withHistory p := by
  by_cases hcur : s.cur = s.rate
  · simp only [refill, State.withHistory, State.permute, hcur, if_true, Nat.add_assoc]
  · simp only [refill, State.withHistory, hcur, if_false]

theorem squeezeBytes_withHistory (n : Nat) :
    squeezeBytes n (s.withHistory p) = ((squeezeBytes n s).1, (squeezeBytes n s).2.withHistory p) := by
  induction n generalizing s with
  | zero => rfl
  | succ n ih =>
    have hbyte : squeezeByte (s.withHistory p) = ((squeezeByte s).1, (squeezeByte s).2.withHistory p) := by
      rw [squeezeByte, refill_withHistory]
      rfl
    rw [squeezeBytes, hbyte, ih, squeezeBytes]

theorem squeezeOut_withHistory (n : Nat) : squeezeOut n (s.withHistory p) = (squeezeOut n s).withHistory p := by
  rw [squeezeOut, squeezeBytes_withHistory]
  rfl

theorem failCommand_withHistory (c : Cause) :
    failCommand c (s.withHistory p) = outcomeWithHistory p (failCommand c s) := by
  rw [failCommand, failCommand, apply_ite (outcomeWithHistory p)]
  rfl

/-- No command reads the history, and each writes to it in the same way whatever it is. -/
theorem exec_withHistory (i : Instr) : exec i (s.withHistory p) = outcomeWithHistory p (exec i s) := by
  cases i with
  | init r d =>
    simp only [exec, execInit]
    cases initFailure r with
    | none => rfl
    | some c => exact failCommand_withHistory s p c
  | absorb n =>
    have hchecks : absorbFailure n (s.withHistory p) = absorbFailure n s := rfl
    simp only [exec, execAbsorb, hchecks]
    cases absorbFailure n s with
    | none => exact congrArg (fun t : State => Host.Outcome.next t.succeed) (absorbBytes_withHistory s p _)
    | some c => exact failCommand_withHistory s p c
  | squeeze n =>
    have hchecks : squeezeFailure n (s.withHistory p) = squeezeFailure n s := rfl
    simp only [exec, execSqueeze, hchecks, ensureFinal_withHistory, squeezeOut_withHistory]
    cases squeezeFailure n s with
    | none => rfl
    | some c => exact failCommand_withHistory s p c

/-! ### Sequences of commands -/

theorem runCommand_withHistory (c : Instr × Word) :
    runCommand (s.withHistory p) c = (runCommand s c).withHistory p := by
  have hexec : exec c.1 { s.withHistory p with pdin := c.2 } = outcomeWithHistory p (exec c.1 { s with pdin := c.2 }) :=
    exec_withHistory { s with pdin := c.2 } p c.1
  rw [runCommand, runCommand, hexec]
  cases exec c.1 { s with pdin := c.2 } <;> rfl

/-- DOUT is no part of the history, so no history shows in the outputs. -/
theorem outputsOf_withHistory (cs : List (Instr × Word)) : outputsOf (s.withHistory p) cs = outputsOf s cs := by
  induction cs generalizing s with
  | nil => rfl
  | cons c cs ih =>
    rw [outputsOf, runCommand_withHistory, ih, outputsOf]
    rfl

/-- INIT leaves what it leaves at reset, with the engine's history. -/
theorem runCommand_init {r : BitVec 8} (hr : RateLegal r) (d : BitVec 8) (w : Word) :
    runCommand s (.init r d, w) = (runCommand State.reset (.init r d, w)).withHistory s := by
  simp only [runCommand, exec_init_ok hr]
  rfl

/-- Settles O11: both engines show the outputs of an engine at reset. -/
theorem outputsForgetHistory : Obligations.OutputsForgetHistory := by
  intro s₁ s₂ r d w cs hlow hhigh
  have hreset (s : State) : outputsOf s ((.init r d, w) :: cs) = outputsOf State.reset ((.init r d, w) :: cs) := by
    rw [outputsOf, runCommand_init s ⟨hlow, hhigh⟩, outputsOf_withHistory, outputsOf]
    rfl
  exact (hreset s₁).trans (hreset s₂).symm

end Sys2Proof.Machine
end

section
/-! PROOFS. Failures: the first check that fails is the one raised, a failure writes ERR, ECAUSE and STICKY and nothing
else, and a step stops only by its two faults (60_exceptions.md R200 to R205). They settle O6, O8, O34, O35 and O48. -/

namespace Sys2Proof.Machine

/-! ### What one command writes of ERR, ECAUSE and STICKY -/

/-- Settles O34: the causes but INVARIANT are raised, INVARIANT is the fault, and each command's own effect ends in a
success that leaves STICKY. -/
theorem failureChangesNothingElse : Obligations.FailureChangesNothingElse := by
  intro i s
  rcases exec_cases i s with ⟨c, hc, h⟩ | ⟨hctxv, hout, h⟩ | ⟨_, _, _, _, h⟩ | ⟨_, _, _, _, _, _, h⟩ | ⟨_, _, _, _, _, h⟩
  · exact Or.inl ⟨c, hc, h⟩
  · exact Or.inr (Or.inr ⟨h, hctxv, hout⟩)
  · exact Or.inr (Or.inl ⟨_, h, rfl, rfl, rfl⟩)
  · exact Or.inr (Or.inl ⟨_, h, rfl, rfl, by simp⟩)
  · exact Or.inr (Or.inl ⟨_, h, rfl, rfl, by simp⟩)

/-! ### Legal status through every step -/

theorem State.raise_statusLegal (c : Cause) (s : State) : Safety.StatusLegal (s.raise c) := Or.inr ⟨c, rfl, rfl, rfl⟩

/-- A command leaves a legal status whatever status it found. -/
theorem exec_statusLegal {i : Instr} {s t : State} (h : exec i s = .next t) : Safety.StatusLegal t := by
  rcases failureChangesNothingElse i s with ⟨c, _, hfails⟩ | ⟨_, hsucceeds, herr, hecause, _⟩ | ⟨hfault, _⟩
  · obtain rfl := Host.Outcome.next.inj (hfails.symm.trans h)
    exact State.raise_statusLegal c s
  · obtain rfl := Host.Outcome.next.inj (hsucceeds.symm.trans h)
    exact Or.inl ⟨herr, hecause⟩
  · cases hfault.symm.trans h

/-- A completion leaves a legal status whatever status it found. -/
theorem complete_statusLegal {s t : State} (h : complete s = .next t) : Safety.StatusLegal t := by
  rcases complete_next_cases h with ⟨c, _, _, rfl⟩ | ⟨_, u, _, hexec, rfl⟩
  · exact State.raise_statusLegal c s
  · have hu : Safety.StatusLegal u := exec_statusLegal hexec
    exact hu

/-- A legal status is about registers that a command writes only. -/
theorem CommandEq.statusLegal {s t : State} (h : CommandEq s t) (hlegal : Safety.StatusLegal s) :
    Safety.StatusLegal t := by
  obtain ⟨_, _, _, _, _, _, _, _, _, herr, hecause, hsticky⟩ := h
  rwa [Safety.StatusLegal, herr, hecause, hsticky]

/-- Settles O48: a completion and a reset edge write legal codes, and the other steps write none. -/
theorem statusLegalKept : Obligations.StatusLegalKept := by
  intro s t hlegal h
  rcases step_command h with heq | ⟨_, _, rfl⟩ | ⟨_, hcomplete⟩
  · exact heq.statusLegal hlegal
  · exact Or.inl ⟨rfl, rfl⟩
  · exact complete_statusLegal hcomplete

/-! ### Progress -/

/-- A step is the host's where the host can move, or the completion where BUSY = 1, or it keeps the state. -/
theorem step_agent_cases (s : State) :
    (hostReady s = true ∧ step s = hostStep s.nextTurn) ∨ (s.busy = true ∧ step s = complete s.nextTurn) ∨
      step s = .next s := by
  cases hready : hostReady s
  · rw [step_of_not_hostReady hready]
    cases s.busy
    · exact Or.inr (Or.inr rfl)
    · exact Or.inr (Or.inl ⟨rfl, rfl⟩)
  · exact (step_of_hostReady hready).imp (fun h => ⟨rfl, h⟩) Or.inl

/-- Where the host can move, its step stops only with `rst` over a held write that BUSY = 1 keeps from acceptance
(93_implementation_defined.md I12). -/
theorem hostStep_progress {s : State} (hready : hostReady s = true) :
    (∃ t, hostStep s = .next t) ∨
      (hostStep s = .fault .accessAcrossReset ∧ s.busy = true ∧ s.held.isSome = true ∧
        s.inputs.head? = some .rst) := by
  cases hheld : s.held with
  | none => rcases hostStep_of_not_held hheld with ⟨_, h⟩ | ⟨_, _, _, h⟩ <;> exact Or.inl ⟨_, h⟩
  | some w =>
    rw [hostStep_of_held hheld]
    cases hbusy : s.busy
    · exact Or.inl ⟨_, rfl⟩
    · have hrst : s.inputs.head? = some .rst := by simpa [hbusy] using (hostReady_of_held hheld).mp hready
      exact Or.inr ⟨rfl, rfl, rfl, hrst⟩

/-- A completion stops only on a context outside INV (93_implementation_defined.md I4). -/
theorem complete_progress (s : State) :
    (∃ t, complete s = .next t) ∨
      ∃ r, complete s = .fault (.invariantFailed r) ∧ s.ctxv = true ∧ ¬s.Inv := by
  rcases complete_cases s with ⟨_, _, _, h⟩ | ⟨_, _, _, _, h⟩ | ⟨hctxv, hout, h⟩
  · exact Or.inl ⟨_, h⟩
  · exact Or.inl ⟨_, h⟩
  · exact Or.inr ⟨_, h, hctxv, hout⟩

/-- Settles O8: the host's step and the completion each have one way to stop. -/
theorem stepProgress : Obligations.StepProgress := by
  intro s
  rcases step_agent_cases s with ⟨hready, hstep⟩ | ⟨hbusy, hstep⟩ | hstep
  · rw [hstep]
    exact (hostStep_progress (s := s.nextTurn) hready).imp_right Or.inl
  · rw [hstep]
    rcases complete_progress s.nextTurn with hnext | ⟨r, hfault, hctxv, hout⟩
    · exact Or.inl hnext
    · exact Or.inr (Or.inr ⟨r, hfault, hbusy, hctxv, hout⟩)
  · exact Or.inl ⟨s, hstep⟩

/-! ### Words the decoder rejects -/

/-- Where BUSY = 1 and the host does not move, the engine completes its command. -/
theorem step_of_engineMoves {s : State} (hbusy : s.busy = true) (hmoves : hostMoves s = false) :
    step s = complete s.nextTurn := by
  simp [step, hbusy, hmoves]

/-- A word that is no command completes with its own error (70_reset_and_hazards.md R224). -/
theorem complete_of_decode_error {s : State} {c : Cause} (h : decode s.pcmd = .error c) :
    complete s = .next (s.raise c).release := by
  simp only [complete, h]

/-- The decoder's causes are argument errors (60_exceptions.md R201). -/
theorem classCode_of_decode_error {w : Word} {c : Cause} (h : decode w = .error c) : classCode (causeClass c) = 1 := by
  rcases decode_error h with rfl | rfl <;> rfl

/-- Settles O6: the step is the completion, which raises an argument error. -/
theorem stepRejectsWord : Obligations.StepRejectsWord := by
  intro s c hbusy hmoves hdecode
  rw [step_of_engineMoves hbusy hmoves, complete_of_decode_error (s := s.nextTurn) hdecode, State.raise,
    classCode_of_decode_error hdecode]
  rfl

/-- A word with none of the three opcodes (30_encoding.md R64). -/
theorem decode_eq_badOpcode {w : Word} (hinit : opcodeField w ≠ 0x01)
    (hformatL : ¬(opcodeField w = 0x02 ∨ opcodeField w = 0x03)) : decode w = .error .badOpcode := by
  obtain ⟨habsorb, hsqueeze⟩ := not_or.mp hformatL
  simp only [decode, hinit, habsorb, hsqueeze, if_false]

/-- A word of format L with a set RSVD bit (30_encoding.md R65). -/
theorem decode_formatL_eq_reservedBits {w : Word} (hformatL : opcodeField w = 0x02 ∨ opcodeField w = 0x03)
    (hreserved : reservedL w ≠ 0) : decode w = .error .reservedBits := by
  have hrejects (mk : BitVec 4 → Instr) : decodeL mk w = .error .reservedBits := if_neg hreserved
  rcases hformatL with hopcode | hopcode <;> simp [decode, hopcode, hrejects]

/-! ### The order of the checks of ABSORB and SQUEEZE (60_exceptions.md R204) -/

/-- A length over 8 is the first check of both, before any look at the context. -/
theorem failure_badLength {n : BitVec 4} (hn : 9 ≤ n.toNat) (s : State) :
    absorbFailure n s = some .badLength ∧ squeezeFailure n s = some .badLength := by
  have hlong : decide (¬LengthLegal n) = true := decide_eq_true (Nat.not_le.mpr hn)
  simp only [absorbFailure, squeezeFailure, firstFailing, hlong]
  exact ⟨rfl, rfl⟩

/-- A legal length on a context outside INV fails INVARIANT in both, before ABSORB looks at FIN. -/
theorem failure_invariant {n : BitVec 4} {s : State} (hn : n.toNat ≤ 8) (hctxv : s.ctxv = true) (hout : ¬s.Inv) :
    absorbFailure n s = some .invariant ∧ squeezeFailure n s = some .invariant := by
  have hlegal : decide (¬LengthLegal n) = false := decide_eq_false (not_not.mpr hn)
  have houtside : decide (¬s.Inv) = true := decide_eq_true hout
  simp only [absorbFailure, squeezeFailure, firstFailing, hlegal, hctxv, houtside]
  exact ⟨rfl, rfl⟩

theorem exec_absorb_of_failure {n : BitVec 4} {s : State} {c : Cause} (h : absorbFailure n s = some c) :
    exec (.absorb n) s = failCommand c s := by
  simp only [exec, execAbsorb, h]

theorem exec_squeeze_of_failure {n : BitVec 4} {s : State} {c : Cause} (h : squeezeFailure n s = some c) :
    exec (.squeeze n) s = failCommand c s := by
  simp only [exec, execSqueeze, h]

/-- A completion of a command, whatever its outcome (70_reset_and_hazards.md R224). -/
theorem complete_of_decode_ok {s : State} {i : Instr} (h : decode s.pcmd = .ok i) :
    complete s = releaseOutcome (exec i s) := by
  simp only [complete, h]

/-- An ABSORB word without RSVD bits completes with ABSORB's first failing check. -/
theorem complete_absorb_of_failure {s : State} {c : Cause} (hopcode : opcodeField s.pcmd = 0x02)
    (hreserved : reservedL s.pcmd = 0) (h : absorbFailure (lengthField s.pcmd) s = some c) :
    complete s = releaseOutcome (failCommand c s) := by
  rw [complete_of_decode_ok ((decode_eq_absorb_iff _ _).mpr ⟨hopcode, hreserved, rfl⟩), exec_absorb_of_failure h]

/-- A word of format L without RSVD bits completes with a check that ABSORB and SQUEEZE both fail first. -/
theorem complete_formatL_of_failure {s : State} {c : Cause}
    (hformatL : opcodeField s.pcmd = 0x02 ∨ opcodeField s.pcmd = 0x03) (hreserved : reservedL s.pcmd = 0)
    (h : absorbFailure (lengthField s.pcmd) s = some c ∧ squeezeFailure (lengthField s.pcmd) s = some c) :
    complete s = releaseOutcome (failCommand c s) := by
  rcases hformatL with hopcode | hopcode
  · exact complete_absorb_of_failure hopcode hreserved h.1
  · rw [complete_of_decode_ok ((decode_eq_squeeze_iff _ _).mpr ⟨hopcode, hreserved, rfl⟩), exec_squeeze_of_failure h.2]

/-- Settles O35, a clause for each check in its order: the decoder's two, INIT's, and those of ABSORB and SQUEEZE. -/
theorem errorPriority : Obligations.ErrorPriority := by
  intro s w op failed formatL rsvd badLength
  have hreservedL (hL : formatL) (hrsvd : ¬rsvd) : reservedL s.pcmd = 0 :=
    by_contra fun hset => hrsvd (Or.inr ⟨hL, hset⟩)
  have hlegal (hL : formatL) (hlength : ¬badLength) : (lengthField s.pcmd).toNat ≤ 8 :=
    Nat.not_lt.mp fun hlong => hlength ⟨hL, hlong⟩
  refine ⟨?badOpcode, ?reservedBits, ?badRate, ?badLength, ?noContext, ?invariant, ?absorbAfterFinal⟩
  case badOpcode =>
    rintro ⟨hinit, hL⟩
    exact complete_of_decode_error (decode_eq_badOpcode hinit hL)
  case reservedBits =>
    rintro (⟨hinit, hset⟩ | ⟨hL, hset⟩)
    · exact complete_of_decode_error (decode_eq_reservedBits hinit hset)
    · exact complete_of_decode_error (decode_formatL_eq_reservedBits hL hset)
  case badRate =>
    rintro ⟨hinit, hrsvd, hrate⟩
    have hreserved : reservedI s.pcmd = 0 := by_contra fun hset => hrsvd (Or.inl ⟨hinit, hset⟩)
    exact complete_of_exec ((decode_eq_init_iff _ _ _).mpr ⟨hinit, hreserved, rfl, rfl⟩)
      (exec_init_badRate ((not_rateLegal_iff _).mpr hrate) _ s)
  case badLength =>
    rintro ⟨⟨hL, hlong⟩, hrsvd⟩
    exact complete_formatL_of_failure hL (hreservedL hL hrsvd) (failure_badLength hlong s)
  case noContext =>
    rintro ⟨hL, hrsvd, hlength, hctxv⟩
    exact complete_formatL_of_failure hL (hreservedL hL hrsvd) (failure_noContext (hlegal hL hlength) hctxv)
  case invariant =>
    rintro ⟨hL, hrsvd, hlength, hctxv, hout⟩
    exact complete_formatL_of_failure hL (hreservedL hL hrsvd) (failure_invariant (hlegal hL hlength) hctxv hout)
  case absorbAfterFinal =>
    rintro ⟨habsorb, hrsvd, hlength, hctxv, hinv, hfin⟩
    have hL : formatL := Or.inl habsorb
    exact complete_absorb_of_failure habsorb (hreservedL hL hrsvd)
      (absorbFailure_absorbAfterFinal (hlegal hL hlength) hctxv hinv hfin)

end Sys2Proof.Machine
end

section
/-! PROOFS. The end of a command: the engine's step runs the decoded command, BUSY ends within as many steps as the host
has events and one more, and a read beside a running SQUEEZE shows the old DOUT or the new one
(70_reset_and_hazards.md R224, R226, R227). They settle O5, O59 and O46. -/

namespace Sys2Proof.Machine

/-- Settles O5: the step is the completion, and a completion is the decoded command with BUSY falling. -/
theorem stepRunsDecoded : Obligations.StepRunsDecoded := by
  intro s i hbusy hmoves hdecode
  rw [step_of_engineMoves hbusy hmoves, complete_of_decode_ok (s := s.nextTurn) hdecode, State.nextTurn]

/-! ### The end of BUSY -/

/-- An event that reaches the engine leaves the events still to come. -/
@[simp] theorem takeEvent_inputs (e : HostEvent) (s : State) : (takeEvent e s).inputs = s.inputs := by
  rcases takeEvent_cases e s with ⟨_, h⟩ | ⟨_, h⟩ | ⟨_, _, h⟩ | ⟨_, _, _, h⟩ | ⟨_, _, _, h⟩ | ⟨_, _, _, h⟩ <;>
    rw [h] <;> rfl

/-- From a state in INV with BUSY = 1 a step stops over an access across reset, or BUSY falls, or the host has one event
less to bring (70_reset_and_hazards.md R224). -/
theorem step_of_busy {s : State} (hinv : s.Inv) (hbusy : s.busy = true) :
    step s = .fault .accessAcrossReset ∨
      ∃ t, step s = .next t ∧ (t.busy = false ∨ (t.busy = true ∧ t.Inv ∧ t.inputs.length < s.inputs.length)) := by
  rcases stepProgress s with ⟨t, hstep⟩ | ⟨hfault, _⟩ | ⟨_, _, _, _, hout⟩
  · refine Or.inr ⟨t, hstep, ?_⟩
    rcases step_cases hstep with ⟨_, _, _, hidle, _⟩ | ⟨_, _, e, rest, hinputs, ht, _⟩ | ⟨_, hcomplete⟩ | ⟨hidle, _⟩
    · simp [hbusy] at hidle
    · have hless : t.inputs.length < s.inputs.length := by simp [ht, hinputs]
      exact (Bool.eq_false_or_eq_true t.busy).symm.imp_right fun hbusy' => ⟨hbusy', invKept s t hinv hstep, hless⟩
    · exact Or.inl (complete_next_held hcomplete).2
    · simp [hbusy] at hidle
  · exact Or.inl hfault
  · exact absurd hinv hout

/-- Settles O59, by induction on the number of events the host still has to bring. -/
theorem busyEnds : Obligations.BusyEnds := by
  intro s hinv hbusy
  induction hlength : s.inputs.length using Nat.strong_induction_on generalizing s with
  | _ events ih =>
    rcases step_of_busy hinv hbusy with hfault | ⟨t, hstep, hidle | ⟨hbusy', hinv', hless⟩⟩
    · exact ⟨1, by omega, Or.inr (run_fault hfault 0)⟩
    · exact ⟨1, by omega, Or.inl ⟨t, run_next hstep 0, hidle⟩⟩
    · obtain ⟨k, hk, hend⟩ := ih _ (hlength ▸ hless) t hinv' hbusy' rfl
      exact ⟨k + 1, by omega, by rwa [run_next hstep]⟩

/-! ### A read that does not wait -/

/-- A SQUEEZE completes alike whatever the host did beside it (70_reset_and_hazards.md R229). -/
theorem complete_squeeze_withHostPart {n : BitVec 4} {s t a : State} (hexec : exec (.squeeze n) s = .next t)
    (hpart : a = s.withHostPart a) (hpcmd : a.pcmd = encode (.squeeze n)) :
    complete a = .next (t.withHostPart a).release := by
  have hsqueeze := exec_squeeze_withHostPart a hexec
  rw [← hpart] at hsqueeze
  exact complete_of_exec (by rw [hpcmd, decode_encode]) hsqueeze

/-- A host that reads register r, with BUSY at either value, is answered its value, and only the host's part of the
state moves (20_memory.md R48). -/
theorem hostStep_answers_read {s : State} {r : Reg} {rest : List HostEvent} (hheld : s.held = none)
    (hinputs : s.inputs = memRead r :: rest) :
    ∃ b, hostStep s = .next b ∧ b.nextTurn = s.withHostPart b.nextTurn ∧ b.pcmd = s.pcmd ∧ b.busy = s.busy ∧
      b.held = none ∧ b.inputs = rest ∧
      b.answers.head? = some { offset := regOffset r, op := .read, status := .okay, data := s.readReg r } := by
  have hvalue : s.dropInput.readReg r = s.readReg r := by cases r <;> rfl
  refine ⟨grantAccess (regOffset r) .read (s.readReg r) s.dropInput, ?_, rfl, rfl, rfl, hheld, ?_, rfl⟩
  · simp only [hostStep, hheld, hinputs, takeEvent_memRead, hvalue]
  · simp [grantAccess, hinputs]

/-- Settles O46: after the write is accepted, the read comes before the completion and answers the old DOUT, or after it
and answers the new one. -/
theorem unwaitedReadIsOldOrNew : Obligations.UnwaitedReadIsOldOrNew := by
  intro n s t hidle hheld hinputs hexec
  obtain ⟨a, hissue, hpart, hpcmd, hbusy, hnone, hrest⟩ := step_accepts_cmd hidle hheld hinputs
  have hready : hostReady a = true := by simp [hostReady, hnone, hrest, memRead]
  rcases step_of_hostReady hready with hhost | ⟨_, hengine⟩
  · obtain ⟨b, hread, hpart', hpcmd', hbusy', hnone', hrest', hanswer⟩ :=
      hostStep_answers_read (s := a.nextTurn) (r := .dout) hnone hrest
    have hold : a.nextTurn.dout = s.dout := by
      rw [hpart]
      rfl
    have hpartBoth : b.nextTurn = s.withHostPart b.nextTurn := by rwa [hpart] at hpart'
    have hnotReady : hostReady b = false := by simp [hostReady, hnone', hrest']
    have hcomplete : step b = .next (t.withHostPart b.nextTurn).release := by
      rw [step_of_not_hostReady hnotReady, if_pos (hbusy'.trans hbusy)]
      exact complete_squeeze_withHostPart hexec hpartBoth (hpcmd'.trans hpcmd)
    refine ⟨(t.withHostPart b.nextTurn).release, s.dout, ?_, rfl, Or.inl rfl, ?_⟩
    · rw [run_next hissue, run_next (hhost.trans hread), run_next hcomplete]
      rfl
    · rw [← hold]
      exact hanswer
  · have hcomplete : step a = .next (t.withHostPart a.nextTurn).release :=
      hengine.trans (complete_squeeze_withHostPart hexec hpart hpcmd)
    obtain ⟨u, hread, hidleEnd, _, _, _, hanswer⟩ := step_answers_read
      (s := (t.withHostPart a.nextTurn).release) (takeEvent_memRead · .dout) rfl hnone hrest
    refine ⟨u, t.dout, ?_, hidleEnd, Or.inr rfl, hanswer⟩
    rw [run_next hissue, run_next hcomplete, run_next hread]
    rfl

end Sys2Proof.Machine
end

section
/-! PROOFS. The permutations of one command, and with them its cycles (70_reset_and_hazards.md R225, R226). They settle
O58. -/

namespace Sys2Proof.Machine

theorem permutationsOf_of_exec {i : Instr} {s t : State} (h : exec i s = .next t) :
    permutationsOf i s = t.permCount - s.permCount := by
  simp only [permutationsOf, h]

/-- ABSORB permutes once for each block that its message bytes complete (70_reset_and_hazards.md R226). -/
theorem absorbBytes_messageBytes_permCount {s : State} (hctxv : s.ctxv = true) (hinv : s.Inv) (hfin : s.fin = false)
    (pdin : Word) (n : Nat) :
    (absorbBytes s (messageBytes pdin n)).permCount = s.permCount + (s.buflen.toNat + n) / s.rate.toNat := by
  obtain ⟨hrate, hbuflen, _⟩ := hinv.absorbing hctxv hfin
  rw [absorbBytes_permCount ⟨hrate, hbuflen⟩, messageBytes_length]

/-- Output bytes make at most a permutation for each block that begins before the last of them (44_squeeze.md R163). -/
theorem squeezeOut_permCount_le {s : State} (h : RateLegal s.rate ∧ s.cur.toNat ≤ s.rate.toNat) (n : Nat) :
    (squeezeOut n s).permCount ≤ s.permCount + (s.cur.toNat + n - 1) / s.rate.toNat := by
  cases n with
  | zero => exact Nat.le_add_right _ _
  | succ n => exact (squeezeBytes_succ_state h n).2.2.le

/-- SQUEEZE: Finalize() is one permutation and leaves CUR at 0, from where 8 bytes need at most 7 refills; where FIN = 1,
8 bytes from any CUR need at most 8 (70_reset_and_hazards.md R226). -/
theorem squeezeOut_ensureFinal_permCount_le {s : State} (hctxv : s.ctxv = true) (hinv : s.Inv) {n : Nat}
    (hn : n ≤ 8) : (squeezeOut n (ensureFinal s)).permCount ≤ s.permCount + 8 := by
  have hrate : 1 ≤ s.rate.toNat := (hinv.rateLegal hctxv).1
  obtain ⟨hlegal, _, hcur⟩ := (ensureFinal_inv hinv hctxv).squeezing (by simp [hctxv]) (by simp)
  have hout := squeezeOut_permCount_le ⟨hlegal, hcur⟩ n
  rw [ensureFinal_rate] at hcur hout
  cases hfin : s.fin
  · have hfinal : (ensureFinal s).permCount = s.permCount + 1 ∧ (ensureFinal s).cur.toNat = 0 := by
      rw [ensureFinal_of_not_fin hfin, finalize_frame]
      exact ⟨rfl, rfl⟩
    have hrefills : ((ensureFinal s).cur.toNat + n - 1) / s.rate.toNat ≤ 7 :=
      Nat.div_le_of_le_mul (by omega)
    omega
  · rw [ensureFinal_of_fin hfin] at hcur hout ⊢
    have hrefills : (s.cur.toNat + n - 1) / s.rate.toNat ≤ 8 := Nat.div_le_of_le_mul (by omega)
    omega

/-- A command that answers a next state has made at most 8 permutations (70_reset_and_hazards.md R226). -/
theorem exec_permCount_le {i : Instr} {s t : State} (h : exec i s = .next t) : t.permCount ≤ s.permCount + 8 := by
  rcases exec_next_cases h with ⟨_, _, rfl⟩ | ⟨_, _, _, _, rfl⟩ | ⟨n, _, hn, hctxv, hinv, hfin, rfl⟩ |
    ⟨_, _, hn, hctxv, hinv, rfl⟩
  · exact Nat.le_add_right _ _
  · exact Nat.le_add_right _ _
  · obtain ⟨⟨hrate, _⟩, hbuflen, _⟩ := hinv.absorbing hctxv hfin
    have hblocks : (s.buflen.toNat + n.toNat) / s.rate.toNat ≤ 8 := Nat.div_le_of_le_mul (by omega)
    rw [State.succeed_permCount, absorbBytes_messageBytes_permCount hctxv hinv hfin]
    omega
  · exact squeezeOut_ensureFinal_permCount_le hctxv hinv hn

theorem permutationsOf_le (i : Instr) (s : State) : permutationsOf i s ≤ 8 := by
  cases h : exec i s with
  | next t =>
    rw [permutationsOf_of_exec h]
    exact Nat.sub_le_iff_le_add'.mpr (exec_permCount_le h)
  | fault _ => simp [permutationsOf, h]
  | refused _ => simp [permutationsOf, h]

/-- INIT makes no permutation, whether it succeeds or fails. -/
theorem permutationsOf_init (r d : BitVec 8) (s : State) : permutationsOf (.init r d) s = 0 := by
  by_cases hr : RateLegal r
  · rw [permutationsOf_of_exec (exec_init_ok hr d s)]
    exact Nat.sub_self _
  · rw [permutationsOf_of_exec (exec_init_badRate hr d s)]
    exact Nat.sub_self _

/-- Settles O58: the bound on the permutations bounds the cycles, and ABSORB's count is that of its byte rule. -/
theorem permutationBound : Obligations.PermutationBound := by
  refine ⟨fun i s => ⟨permutationsOf_le i s, ?_⟩, permutationsOf_init, fun n s hn hctxv hinv hfin => ?_⟩
  · exact Nat.add_le_add_left (Nat.mul_le_mul_right _ (permutationsOf_le i s)) 1
  · rw [permutationsOf_of_exec (exec_absorb_ok hn hctxv hinv hfin), State.succeed_permCount,
      absorbBytes_messageBytes_permCount hctxv hinv hfin, Nat.add_sub_cancel_left]

end Sys2Proof.Machine
end
